-- ==== Sys2Proof/Word.lean ====
section
/-! DEFINITION. The two widths of the hardware: the 16-bit word and the 8-bit byte (spec 00_scope.md R4). -/

namespace Sys2Proof

/-- A 16-bit value: a register, an address, an instruction word (R4, R7). -/
abbrev Word := BitVec 16

/-- An 8-bit value: one cell of data memory (R50). -/
abbrev Byte := BitVec 8

end Sys2Proof
end

