-- ==== Sys2Proof/Config.lean ====
section
/-! DEFINITION. The parameters the spec leaves open (00_scope.md R5, 92_eei_decisions.md): their types and
alternatives, the record that holds one value of each, and the two things that have no value at all (free bits,
the layout of SAR). The values this model runs with are `Sys2Proof.Machine.cfg` in Machine/Params.lean.
`END_PC` is supplied per launch (D26) and stands in Safety.lean. -/

namespace Sys2Proof

/-- `PC_UNIT`: what one unit of PC addresses (10_state.md R25, D2). -/
inductive PcUnit
  | word   -- one 16-bit instruction word: the spec's default
  | byte   -- one byte: program addresses doubled, bit 0 of a target is 0
deriving DecidableEq, Repr

/-- `REL_BASE`: what a relative offset is added to (30_encoding.md R105, D4). -/
inductive RelBase
  | nextInstruction   -- the address after the branch: the spec's default
  | branchItself
deriving DecidableEq, Repr

/-- `ENDIAN`: byte order of a 16-bit data access (20_memory.md R55, R57, D5). -/
inductive Endian
  | little   -- low byte at the lower address: the spec's default
  | big
deriving DecidableEq, Repr

/-- `disp6`: how the 6-bit T7 field gives an offset (30_encoding.md R104, D8). -/
inductive Disp6
  | biased           -- (A) field - 16: the spec's default
  | movedBoundary    -- (B) 0..47 itself, 48..63 is field - 64
  | twosComplement   -- (C) -32..31
deriving DecidableEq, Repr

/-- `LOGIC_CV`: C and V after a logic instruction (10_state.md R38, D13). -/
inductive LogicCV
  | anyValue   -- each an independent draw: the spec's default
  | cleared
  | unchanged
deriving DecidableEq, Repr

/-- `SHIFT_FLAGS`: V, S, C, Z after `lsr`, `lsl`, `asr` (43_t11_one_reg.md R191, D15). -/
inductive ShiftFlags
  | unchanged   -- the spec's default
  | anyValue
deriving DecidableEq, Repr

/-- `CMPRR_ORDER`: which operand `cmp Rs, Rd` subtracts from which (44_zero_two_operand.md R216, D16). -/
inductive CmprrOrder
  | rdMinusRs   -- the spec's default
  | rsMinusRd
deriving DecidableEq, Repr

/-- `IrqAgent`: the interrupt mechanism (60_exceptions.md R234, D20). The spec gives no entry sequence, so an
agent that is present leaves the model only the refusal of states with interrupts enabled. -/
inductive IrqAgent
  | absent    -- no interrupt is ever requested: the spec's default
  | present   -- one may be requested at any instruction while I = 1
deriving DecidableEq, Repr

/-- One value of every open parameter but `END_PC` and `sarImage`. `dataMap` (`DataMap`, R53, D24) lists the
regions of plain data memory as (first address, number of bytes). -/
structure Config where
  pcUnit     : PcUnit
  relBase    : RelBase
  endian     : Endian
  disp6      : Disp6
  logicCV    : LogicCV
  shiftFlags : ShiftFlags
  cmprrOrder : CmprrOrder
  resetPc    : Word
  dataMap    : List (Nat × Nat)
  irqAgent   : IrqAgent
deriving DecidableEq, Repr

/-- FREE VALUE. The n-th any-value bit the machine draws (R38, R44, D13): nothing is known of it (log 18). -/
opaque Config.freeBit : Nat → Bool

/-- FREE VALUE. `sarImage`, the 16-bit value of SAR that `mov SR, Rd` writes, a function of the seven flags
I, V, S, C, Z, AC, AZ of which nothing else is known (R31, D22, log 27). -/
opaque Config.sarImage : Bool → Bool → Bool → Bool → Bool → Bool → Bool → Word

end Sys2Proof
end

