-- ==== Sys2Proof/Machine/Params.lean ====
section
/-! DEFINITION. The values this model gives the open parameters: the spec's defaults (00_scope.md R5,
92_eei_decisions.md). DESIGN CHOICE of the spec, each unsafe, each one field: a different value is a different
machine (log 4, 8, 10, 11, 14, 18, 20, 21, 25, 28). -/

namespace Sys2Proof.Machine

/-- The parameters at the spec's defaults (R5). -/
def cfg : Config where
  pcUnit     := .word              -- D2, log 8
  relBase    := .nextInstruction   -- D4, log 10
  endian     := .little            -- D5, log 11
  disp6      := .biased            -- D8, log 14
  logicCV    := .anyValue          -- D13, log 18
  shiftFlags := .unchanged         -- D15, log 20
  cmprrOrder := .rdMinusRs         -- D16, log 21
  resetPc    := 0x0000#16          -- D23, log 4
  dataMap    := [(0, 65536)]       -- D24, log 28
  irqAgent   := .absent            -- D20, log 25

end Sys2Proof.Machine
end

