-- ==== Sys2Proof/Syntax.lean ====
section
/-! DEFINITION. The instructions: registers, condition codes and ONE constructor per row of spec/opcode_table.json
(87 instructions and 14 reserved blocks). Constructors carry the raw fields of the encoding; a reserved block
carries its unused bits, so that the word it stands for can be named in its fault. Rules: spec 30_encoding.md. -/

namespace Sys2Proof

/-- The eight general registers (10_state.md R20). -/
inductive Reg
  | r0 | r1 | r2 | r3 | r4 | r5 | r6 | r7
deriving DecidableEq, Repr

/-- The eight encoded conditions (10_state.md R33). -/
inductive Cond
  | eq | ne | uge | ult | lt | ge | ugt | gt
deriving DecidableEq, Repr

/-- One constructor per row of the opcode table; the names are the table's machine names. `movsr` and `movSr`,
`movkr` and `movKr` are different instructions, as in the source (00_scope.md R12). -/
inductive Instr
  -- T1, relative jump and call: `a` is the 12-bit word offset (R83, R120, R121).
  /-- `jmp Label` -/
  | jmprel (a : BitVec 12)
  /-- `call Label` -/
  | callrel (a : BitVec 12)
  -- T2, conditional branch: `a` is the 9-bit word offset (R84, R122).
  /-- `breq Label` -/
  | breq (a : BitVec 9)
  /-- `brne Label` -/
  | brne (a : BitVec 9)
  /-- `bruge Label` -/
  | bruge (a : BitVec 9)
  /-- `brult Label` -/
  | brult (a : BitVec 9)
  /-- `brlt Label` -/
  | brlt (a : BitVec 9)
  /-- `brge Label` -/
  | brge (a : BitVec 9)
  /-- `brugt Label` -/
  | brugt (a : BitVec 9)
  /-- `brgt Label` -/
  | brgt (a : BitVec 9)
  -- T3, conditional set (R85, R123).
  /-- `seteq Rd` -/
  | seteq (rd : Reg)
  /-- `setne Rd` -/
  | setne (rd : Reg)
  /-- `setuge Rd` -/
  | setuge (rd : Reg)
  /-- `setult Rd` -/
  | setult (rd : Reg)
  /-- `setlt Rd` -/
  | setlt (rd : Reg)
  /-- `setge Rd` -/
  | setge (rd : Reg)
  /-- `setugt Rd` -/
  | setugt (rd : Reg)
  /-- `setgt Rd` -/
  | setgt (rd : Reg)
  -- T4, conditional select (R86, R124).
  /-- `seleq Rn, Rs, Rd` -/
  | seleq (rn rs rd : Reg)
  /-- `selne Rn, Rs, Rd` -/
  | selne (rn rs rd : Reg)
  /-- `seluge Rn, Rs, Rd` -/
  | seluge (rn rs rd : Reg)
  /-- `selult Rn, Rs, Rd` -/
  | selult (rn rs rd : Reg)
  /-- `sellt Rn, Rs, Rd` -/
  | sellt (rn rs rd : Reg)
  /-- `selge Rn, Rs, Rd` -/
  | selge (rn rs rd : Reg)
  /-- `selugt Rn, Rs, Rd` -/
  | selugt (rn rs rd : Reg)
  /-- `selgt Rn, Rs, Rd` -/
  | selgt (rn rs rd : Reg)
  -- T5, three-register ALU, load and store with register offset (R87, R98).
  /-- `add Rn, Rs, Rd`, R130 -/
  | addrrr (rn rs rd : Reg)
  /-- `addc Rn, Rs, Rd`, R131 -/
  | adcrrr (rn rs rd : Reg)
  /-- `sub Rn, Rs, Rd`, R132 -/
  | subrrr (rn rs rd : Reg)
  /-- `subc Rn, Rs, Rd`, R133 -/
  | subcrrr (rn rs rd : Reg)
  /-- `or Rn, Rs, Rd`, R134 -/
  | orrrr (rn rs rd : Reg)
  /-- `and Rn, Rs, Rd`, R135 -/
  | andrrr (rn rs rd : Reg)
  /-- `xor Rn, Rs, Rd`, R136 -/
  | xorrrr (rn rs rd : Reg)
  /-- T5 op 0111, R137; `x` is w[8:0] -/
  | reservedT5_0111 (x : BitVec 9)
  /-- `ld.w [Rn, Rs], Rd`, R138 -/
  | mov16nr (rn rs rd : Reg)
  /-- `ld.zb [Rn, Rs], Rd`, R139 -/
  | mov8znr (rn rs rd : Reg)
  /-- `ld.sb [Rn, Rs], Rd`, R140 -/
  | mov8snr (rn rs rd : Reg)
  /-- `st.w Rd, [Rn, Rs]`, R141 -/
  | mov16rn (rn rs rd : Reg)
  /-- `st.b Rd, [Rn, Rs]`, R142 -/
  | mov8rn (rn rs rd : Reg)
  -- T6, and, or immediate: `k` is zero-extended (R88).
  /-- `and Rd, K, Rd`, R150 -/
  | andkr (rd : Reg) (k : BitVec 6)
  /-- `or Rd, K, Rd`, R151 -/
  | orkr (rd : Reg) (k : BitVec 6)
  /-- T6 op 10 and 11, R166; `x` is w[11:9], `y` is w[6:0] -/
  | reservedT6_1x (x : BitVec 3) (y : BitVec 7)
  -- T7, load and store with immediate offset: `k` is displaced by `disp6` (R89, R104).
  /-- `ld.w [Rn, K], Rd`, R152 -/
  | mov16mr (rd rn : Reg) (k : BitVec 6)
  /-- `ld.sb [Rn, K], Rd`, R153 -/
  | movs8mr (rd rn : Reg) (k : BitVec 6)
  /-- `st.w Rd, [Rn, K]`, R154 -/
  | mov16rm (rd rn : Reg) (k : BitVec 6)
  /-- `st.b Rd, [Rn, K]`, R155 -/
  | mov8rm (rd rn : Reg) (k : BitVec 6)
  -- T8, move, compare, add, subtract immediate (R90).
  /-- `mov K, Rd`, R156 -/
  | movkr (rd : Reg) (k : BitVec 8)
  /-- `cmp Rd, K`, R157 -/
  | cmpkr (rd : Reg) (k : BitVec 8)
  /-- `add Rd, K, Rd`, R158 -/
  | addkr (rd : Reg) (k : BitVec 8)
  /-- `sub Rd, K, Rd`, R159 -/
  | subkr (rd : Reg) (k : BitVec 8)
  -- T9, SP-relative load and store (R91).
  /-- `ld.w [SP, K], Rd`, R160 -/
  | mov16qr (rd : Reg) (k : BitVec 8)
  /-- `ld.sb [SP, K], Rd`, R161 -/
  | movs8qr (rd : Reg) (k : BitVec 8)
  /-- `st.w Rd, [SP, K]`, R162 -/
  | mov16rq (rd : Reg) (k : BitVec 8)
  /-- `st.b Rd, [SP, K]`, R163 -/
  | mov8rq (rd : Reg) (k : BitVec 8)
  -- T10, offset to SP (R92).
  /-- `add SP, K, SP`, R164 -/
  | addks (k : BitVec 8)
  /-- `sub SP, K, SP`, R165 -/
  | subks (k : BitVec 8)
  -- T11 op2 00, stack and SP (R93, R99).
  /-- `push Rd`, R180 -/
  | push (rd : Reg)
  /-- `pop Rd`, R181 -/
  | pop (rd : Reg)
  /-- `mov SP, Rd`, R182 -/
  | movsr (rd : Reg)
  /-- `mov Rd, SP`, R183 -/
  | movrs (rd : Reg)
  /-- `add SP, Rd, SP`, R184 -/
  | addrs (rd : Reg)
  /-- `sub SP, Rd, SP`, R185 -/
  | subrs (rd : Reg)
  /-- `add SP, Rd, Rd`, R186 -/
  | addsr (rd : Reg)
  /-- `sub SP, Rd, Rd`, R187 -/
  | subsr (rd : Reg)
  -- T11 op2 01, indirect jump and call, `mov SR` (R93, R99).
  /-- `jmp Rd`, R188 -/
  | jmpreg (rd : Reg)
  /-- `call Rd`, R189 -/
  | callreg (rd : Reg)
  /-- T11 "010 01", R202; `x` is w[4:0] -/
  | reservedT11_010_01 (x : BitVec 5)
  /-- T11 "011 01", R202; `x` is w[4:0] -/
  | reservedT11_011_01 (x : BitVec 5)
  /-- T11 "100 01", R202; `x` is w[4:0] -/
  | reservedT11_100_01 (x : BitVec 5)
  /-- T11 "101 01", R202; `x` is w[4:0] -/
  | reservedT11_101_01 (x : BitVec 5)
  /-- T11 "110 01", R202; `x` is w[4:0] -/
  | reservedT11_110_01 (x : BitVec 5)
  /-- `mov SR, Rd`, R190 -/
  | movSr (rd : Reg)
  -- T11 op2 10, one-register ALU (R93, R99).
  /-- `lsr Rd`, R191 -/
  | lsr (rd : Reg)
  /-- `lsl Rd`, R192 -/
  | lsl (rd : Reg)
  /-- `asr Rd`, R193 -/
  | asr (rd : Reg)
  /-- T11 "011 10", R202; `x` is w[4:0] -/
  | reservedT11_011_10 (x : BitVec 5)
  /-- T11 "100 10", R202; `x` is w[4:0] -/
  | reservedT11_100_10 (x : BitVec 5)
  /-- `neg Rd`, R194 -/
  | neg (rd : Reg)
  /-- `not Rd`, R195 -/
  | not (rd : Reg)
  /-- T11 "111 10", R202; `x` is w[4:0] -/
  | reservedT11_111_10 (x : BitVec 5)
  -- T11 op2 11, two words: `k` or `a` is the second word (R80, R93, R99).
  /-- `mov.w K, Rd`, R196 -/
  | movKr (rd : Reg) (k : Word)
  /-- `ld.w [A], Rd`, R197 -/
  | mov16ar (rd : Reg) (a : Word)
  /-- `ld.zb [A], Rd`, R198 -/
  | mov8zar (rd : Reg) (a : Word)
  /-- `ld.sb [A], Rd`, R199 -/
  | mov8sar (rd : Reg) (a : Word)
  /-- `st.w Rd, [A]`, R200 -/
  | mov16ra (rd : Reg) (a : Word)
  /-- `st.b Rd, [A]`, R201 -/
  | mov8ra (rd : Reg) (a : Word)
  /-- T11 "110 11", R202; `x` is w[4:0] -/
  | reservedT11_110_11 (x : BitVec 5)
  /-- T11 "111 11", R202; `x` is w[4:0] -/
  | reservedT11_111_11 (x : BitVec 5)
  -- T12, zero operands (R94).
  /-- `ret`, R210 -/
  | ret
  /-- `reti`, R211 -/
  | reti
  /-- `dint`, R212 -/
  | dint
  /-- `eint`, R213 -/
  | eint
  /-- T12 op 100 to 111, R214; `x` is w[10:9], `y` is w[6:0] -/
  | reservedT12_1xx (x : BitVec 2) (y : BitVec 7)
  -- T13, two registers (R95).
  /-- `mov Rs, Rd`, R215 -/
  | movrr (rs rd : Reg)
  /-- `cmp Rs, Rd`, R216 -/
  | cmprr (rs rd : Reg)
  /-- `zext Rs, Rd`, R217 -/
  | zext (rs rd : Reg)
  /-- `sext Rs, Rd`, R218 -/
  | sext (rs rd : Reg)
  /-- `bswap Rs, Rd`, R219 -/
  | bswap (rs rd : Reg)
  /-- `sextw Rs, Rd`, R220 -/
  | sextw (rs rd : Reg)
  /-- T13 op 110, R222; `x` is w[6:0] -/
  | reservedT13_110 (x : BitVec 7)
  /-- `ld` of program memory at Rs into Rd, R221 -/
  | mov16pr (rs rd : Reg)
deriving DecidableEq, Repr

end Sys2Proof
end

