-- ==== Sys2Proof/Machine/State.lean ====
section
/-! DEFINITION. The state of the machine, whole, as spec 10_state.md R43 lists it, plus one counter of the model's
own; the ways a step stops; the state after reset (R43, 70_reset_and_hazards.md R260). -/

namespace Sys2Proof.Machine

/-- Data memory (R50): (byte address, byte), addresses strictly rising and below 65536. An unlisted address has
NO VALUE: nothing has written it since reset or launch, and reading it is a fault (R44, log 5). -/
abbrev Memory := List Host.Cell

/-- Program memory (R51): (program address, instruction word), addresses strictly rising and below 65536. An
unlisted address holds no loaded word, and reading it is a fault (R53, log 7). -/
abbrev ProgramMemory := List (Nat × Word)

/-- The eight general registers (R20). None is hardwired, banked or aliased (R21). -/
structure RegFile where
  r0 : Word
  r1 : Word
  r2 : Word
  r3 : Word
  r4 : Word
  r5 : Word
  r6 : Word
  r7 : Word
deriving DecidableEq, Repr

/-- SAR, the status register: seven one-bit flags in the source's order (R27). The spec gives them no bit
positions (R31). -/
structure Sar where
  /-- I, interrupt flag: 1 is enabled (R30, log 24). -/
  i  : Bool
  /-- V, compare flag: signed overflow (R28, log 16). -/
  v  : Bool
  /-- S, compare flag: sign (R28, log 16). -/
  s  : Bool
  /-- C, compare flag: carry, after a subtraction no borrow (R28, R39). -/
  c  : Bool
  /-- Z, compare flag: zero (R28). -/
  z  : Bool
  /-- AC, arithmetic flag: the carry that `addc` and `subc` consume (R28). -/
  ac : Bool
  /-- AZ, arithmetic flag: zero (R28). -/
  az : Bool
deriving DecidableEq, Repr

/-- The complete architectural state (R43) and `draws`. -/
structure State where
  /-- x[0..7] (R20). -/
  regs  : RegFile
  /-- The stack pointer, a byte address of data memory (R22). -/
  sp    : Word
  /-- The program pointer, in `PC_UNIT` units (R23, R25). -/
  pc    : Word
  /-- The status register (R27). -/
  sar   : Sar
  /-- Data memory (R50). -/
  data  : Memory
  /-- Program memory (R51). -/
  prog  : ProgramMemory
  /-- THE MODEL'S OWN: how many any-value bits have been drawn (R38, log 18). -/
  draws : Nat
deriving DecidableEq, Repr

/-- The seven flags of SAR, by name (R27). -/
inductive Flag
  | i | v | s | c | z | ac | az
deriving DecidableEq, Repr

/-- What a read can find without a value (R44): a register, SP, a flag, or the data byte at an address. -/
inductive Place
  | reg (r : Reg)
  | sp
  | flag (f : Flag)
  | byte (addr : Word)
deriving DecidableEq, Repr

/-- The model-level faults, the spec's closed list (60_exceptions.md R231). Each stops the machine before any write
of the instruction (R232); none is a trap, the hardware has none (R230). -/
inductive Fault
  /-- A reserved encoding with first word `w` was executed; raised by the 14 reserved blocks. Safe (R101, D21). -/
  | reservedEncoding (w : Word)
  /-- A 16-bit data access at the odd address `addr`; raised by every word load and store, push, pop, call and ret.
  Safe (R60, D6). -/
  | misalignedWord (addr : Word)
  /-- A data access at `addr` outside `DataMap`; raised by every load, store, push, pop, call and ret; cannot occur
  under the default map. Safe (R53, D24). -/
  | unmappedData (addr : Word)
  /-- A program-memory read at `addr`, where no word was loaded; raised by fetch, by the second word of two-word
  forms and by the program-memory load. Safe (R53, R58). -/
  | unmappedProgram (addr : Word)
  /-- `reti` was executed, or a model with an interrupt agent would have to take an interrupt; nothing in the spec
  says what either does. Safe (R211, R231, D20). -/
  | interruptUnmodelled
  /-- `what` was read and nothing has written it since reset or launch. For a data byte, raised by every data load,
  pop and ret; for a register, SP or a flag, by `checkedStep` and the runs of Safety.lean, for every instruction with
  such an operand (Machine/Checked.lean, log 6). Safe (R44). -/
  | uninitialisedRead (what : Place)
deriving DecidableEq, Repr

/-- The refusals of the model. -/
inductive Refusal
  /-- The instruction has no meaning in this model yet; raised by no arm of `exec` now. Safe. -/
  | notModelled (mnemonic : String)
deriving DecidableEq, Repr

/-- Reset (R43, R260): pc at `RESET_PC`, I = 0 by the spec's decision D23 (log 4); R0 to R7, SP and the other six
flags zero, DESIGN CHOICE, unsafe (log 1, 2, 3); both memories empty (log 5, 7); `draws` zero, DESIGN CHOICE
(log 18). -/
def State.reset : State where
  regs  := { r0 := 0, r1 := 0, r2 := 0, r3 := 0, r4 := 0, r5 := 0, r6 := 0, r7 := 0 }
  sp    := 0
  pc    := cfg.resetPc
  sar   := { i := false, v := false, s := false, c := false, z := false, ac := false, az := false }
  data  := []
  prog  := []
  draws := 0

end Sys2Proof.Machine
end

