-- ==== Sys2Proof/Machine/Ops.lean ====
section
/-! DEFINITION. The named operations over registers and memories: the access primitives of spec 20_memory.md, the
stack operations, the way a step stops (60_exceptions.md R230 to R232) and the way an instruction ends
(10_state.md R24). The spec has no exception entry and no return from one (R230, R236, R237): `raise` is the one
operation there is. -/

namespace Sys2Proof.Machine

/-! Registers and flags. -/

/-- The value of a general register (R20). -/
def RegFile.get (f : RegFile) : Reg → Word
  | .r0 => f.r0
  | .r1 => f.r1
  | .r2 => f.r2
  | .r3 => f.r3
  | .r4 => f.r4
  | .r5 => f.r5
  | .r6 => f.r6
  | .r7 => f.r7

/-- The registers with one of them replaced (R20, R21: none is hardwired). -/
def RegFile.set (f : RegFile) (r : Reg) (v : Word) : RegFile :=
  match r with
  | .r0 => { f with r0 := v }
  | .r1 => { f with r1 := v }
  | .r2 => { f with r2 := v }
  | .r3 => { f with r3 := v }
  | .r4 => { f with r4 := v }
  | .r5 => { f with r5 := v }
  | .r6 => { f with r6 := v }
  | .r7 => { f with r7 := v }

/-- The value of a flag of SAR (R27). -/
def Sar.get (f : Sar) : Flag → Bool
  | .i => f.i
  | .v => f.v
  | .s => f.s
  | .c => f.c
  | .z => f.z
  | .ac => f.ac
  | .az => f.az

/-- SAR with one flag replaced (R27). -/
def Sar.set (f : Sar) (g : Flag) (b : Bool) : Sar :=
  match g with
  | .i => { f with i := b }
  | .v => { f with v := b }
  | .s => { f with s := b }
  | .c => { f with c := b }
  | .z => { f with z := b }
  | .ac => { f with ac := b }
  | .az => { f with az := b }

/-- `x[i]` (00_scope.md R8). -/
def State.reg (s : State) (r : Reg) : Word := s.regs.get r

/-- `x[i] <- v` (R8). -/
def State.setReg (s : State) (r : Reg) (v : Word) : State := { s with regs := s.regs.set r v }

/-- `sp <- v` (R8). -/
def State.setSp (s : State) (v : Word) : State := { s with sp := v }

/-- `pc <- v` (R8). -/
def State.setPc (s : State) (v : Word) : State := { s with pc := v }

/-- SAR replaced. -/
def State.setSar (s : State) (f : Sar) : State := { s with sar := f }

/-- Data memory replaced. -/
def State.setData (s : State) (m : Memory) : State := { s with data := m }

/-- Program memory replaced: by the launch only (R51, R261). -/
def State.setProg (s : State) (m : ProgramMemory) : State := { s with prog := m }

/-! Program addresses. -/

/-- How many PC units one instruction word takes (R25, D2). -/
def unitsPerWord : PcUnit → Nat
  | .word => 1
  | .byte => 2

/-- The program address `n` words after `pc`, modulo 2^16 (R24, R26). -/
def pcPlus (u : PcUnit) (pc : Word) (n : Nat) : Word := pc + BitVec.ofNat 16 (n * unitsPerWord u)

/-- An instruction of `n` words that does not assign pc ends with `pc <- pc + n` (R8, R24). -/
def State.advance (s : State) (n : Nat) : State := s.setPc (pcPlus cfg.pcUnit s.pc n)

/-! Memories, as lists in canonical form. -/

/-- The value listed at an address, if any. -/
def Cells.read {α : Type} : List (Nat × α) → Nat → Option α
  | [], _ => none
  | (k, v) :: rest, a => if k = a then some v else Cells.read rest a

/-- The list with the value at one address set, addresses kept rising. -/
def Cells.write {α : Type} : List (Nat × α) → Nat → α → List (Nat × α)
  | [], a, v => [(a, v)]
  | (k, u) :: rest, a, v =>
    if a < k then (a, v) :: (k, u) :: rest
    else if a = k then (a, v) :: rest
    else (k, u) :: Cells.write rest a v

/-- Canonical form: addresses strictly rising and 16 bits wide. -/
abbrev Cells.wf {α : Type} (m : List (Nat × α)) : Prop :=
  (m.map Prod.fst).Pairwise (· < ·) ∧ ∀ a ∈ m.map Prod.fst, a < 65536

/-- Data memory is in canonical form: no listed byte equals what an unlisted address reads as, which is no value. -/
abbrev Memory.wf (m : Memory) : Prop := Cells.wf m

/-- Program memory is in canonical form. -/
abbrev ProgramMemory.wf (m : ProgramMemory) : Prop := Cells.wf m

/-! Stopping. -/

/-- `raise F(info)` (R10, R231, R232): the step does not happen and no state changes. -/
def raise (f : Fault) : Host.Outcome State Fault Refusal := .fault f

/-- Go on with what an access gave, or raise its fault: nothing was written before (R232). -/
def continueWith {α : Type} (r : Except Fault α) (k : α → State) : Host.Outcome State Fault Refusal :=
  match r with
  | .ok v => .next (k v)
  | .error f => raise f

/-! Program memory. -/

/-- `ProgRead(addr)` (R58): the word loaded there, or UnmappedProgram (R53). With a byte-counting PC only even
addresses hold a word (D2). It never changes state. -/
def progRead (m : ProgramMemory) (a : Word) : Except Fault Word :=
  if cfg.pcUnit = .byte ∧ a.getLsbD 0 then .error (.unmappedProgram a)
  else match Cells.read m a.toNat with
    | some w => .ok w
    | none => .error (.unmappedProgram a)

/-! Data memory. -/

/-- Whether an address lies in a region of plain data memory (R53). -/
def inMap (regions : List (Nat × Nat)) (a : Word) : Bool :=
  regions.any fun r => decide (r.1 ≤ a.toNat) && decide (a.toNat < r.1 + r.2)

/-- The word whose byte at the lower address is `b0` and at the higher `b1` (R55). -/
def joinBytes (e : Endian) (b0 b1 : Byte) : Word :=
  match e with
  | .little => b1 ++ b0
  | .big => b0 ++ b1

/-- The byte of a word that is stored at the lower address (R57). -/
def lowerByte (e : Endian) (v : Word) : Byte :=
  match e with
  | .little => v.extractLsb' 0 8
  | .big => v.extractLsb' 8 8

/-- The byte of a word that is stored at the higher address (R57). -/
def higherByte (e : Endian) (v : Word) : Byte :=
  match e with
  | .little => v.extractLsb' 8 8
  | .big => v.extractLsb' 0 8

/-- What keeps a byte access from happening (R53). -/
def byteFault (a : Word) : Option Fault :=
  if inMap cfg.dataMap a then none else some (.unmappedData a)

/-- What keeps a word access from happening, in the order of R231: alignment (R60), then the map at either byte
(R53, log 28). -/
def wordFault (a : Word) : Option Fault :=
  if a.getLsbD 0 then some (.misalignedWord a)
  else match byteFault a with
    | some f => some f
    | none => byteFault (a + 1)

/-- The byte at `a`, or UninitialisedRead where nothing has written it (R44). -/
def byteAt (m : Memory) (a : Word) : Except Fault Byte :=
  match Cells.read m a.toNat with
  | some b => .ok b
  | none => .error (.uninitialisedRead (.byte a))

/-- `MemRead(addr, 1)` (R54). -/
def memRead8 (s : State) (a : Word) : Except Fault Byte :=
  match byteFault a with
  | some f => .error f
  | none => byteAt s.data a

/-- `MemRead(addr, 2)` (R55). -/
def memRead16 (s : State) (a : Word) : Except Fault Word :=
  match wordFault a with
  | some f => .error f
  | none =>
    match byteAt s.data a, byteAt s.data (a + 1) with
    | .error f, _ => .error f
    | .ok _, .error f => .error f
    | .ok b0, .ok b1 => .ok (joinBytes cfg.endian b0 b1)

/-- `MemWrite(addr, 1, v)` (R56). -/
def memWrite8 (s : State) (a : Word) (v : Byte) : Except Fault State :=
  match byteFault a with
  | some f => .error f
  | none => .ok (s.setData (Cells.write s.data a.toNat v))

/-- `MemWrite(addr, 2, v)` (R57). -/
def memWrite16 (s : State) (a : Word) (v : Word) : Except Fault State :=
  match wordFault a with
  | some f => .error f
  | none =>
    .ok (s.setData (Cells.write (Cells.write s.data a.toNat (lowerByte cfg.endian v))
      (a + 1).toNat (higherByte cfg.endian v)))

/-! Loads and stores of an instruction of `n` words (R59). -/

/-- `ld.w`: `x[d] <- MemRead(ea, 2)`. -/
def loadWord (s : State) (rd : Reg) (ea : Word) (n : Nat) : Host.Outcome State Fault Refusal :=
  continueWith (memRead16 s ea) fun v => (s.setReg rd v).advance n

/-- `ld.zb`: `x[d] <- zext_16(MemRead(ea, 1))`. -/
def loadZeroByte (s : State) (rd : Reg) (ea : Word) (n : Nat) : Host.Outcome State Fault Refusal :=
  continueWith (memRead8 s ea) fun b => (s.setReg rd (b.setWidth 16)).advance n

/-- `ld.sb`: `x[d] <- sext_16(MemRead(ea, 1))`. -/
def loadSignByte (s : State) (rd : Reg) (ea : Word) (n : Nat) : Host.Outcome State Fault Refusal :=
  continueWith (memRead8 s ea) fun b => (s.setReg rd (b.signExtend 16)).advance n

/-- `st.w`: `MemWrite(ea, 2, x[d])`. -/
def storeWord (s : State) (rd : Reg) (ea : Word) (n : Nat) : Host.Outcome State Fault Refusal :=
  continueWith (memWrite16 s ea (s.reg rd)) fun t => t.advance n

/-- `st.b`: `MemWrite(ea, 1, x[d][7:0])` (R56). -/
def storeByte (s : State) (rd : Reg) (ea : Word) (n : Nat) : Host.Outcome State Fault Refusal :=
  continueWith (memWrite8 s ea ((s.reg rd).extractLsb' 0 8)) fun t => t.advance n

/-! The stack. -/

/-- SP decremented by 2 and a word stored at the new SP (43_t11_one_reg.md R180, D17). -/
def pushWord (s : State) (v : Word) : Except Fault State :=
  match memWrite16 s (s.sp - 2) v with
  | .ok t => .ok (t.setSp (s.sp - 2))
  | .error f => .error f

/-- The word at SP, and the state with SP incremented by 2 (R181, D17). -/
def popWord (s : State) : Except Fault (Word × State) :=
  match memRead16 s s.sp with
  | .ok v => .ok (v, s.setSp (s.sp + 2))
  | .error f => .error f

/-- The return address pushed and pc set: both forms of `call` (40_control_cond.md R121, 43_t11_one_reg.md R189,
D18). -/
def callTo (s : State) (target : Word) : Host.Outcome State Fault Refusal :=
  continueWith (pushWord s (pcPlus cfg.pcUnit s.pc 1)) fun t => t.setPc target

/-! Interrupts. -/

/-- Whether a model built with an interrupt agent would have to take an interrupt here, which nothing in the spec
says how to do (R231, R234): never, with the agent absent. -/
def interruptDue (agent : IrqAgent) (s : State) : Bool :=
  match agent with
  | .absent => false
  | .present => s.sar.i

end Sys2Proof.Machine
end

