-- ==== Sys2Proof/Machine/Operands.lean ====
section
/-! DEFINITION. Every operand form: how immediates are widened (spec 30_encoding.md R103, R104), relative targets
(R105) and effective addresses (20_memory.md R61), all modulo 2^16 and none scaled (log 13, 15). -/

namespace Sys2Proof.Machine

/-- `zext_16` (00_scope.md R7). -/
def zext16 {n : Nat} (v : BitVec n) : Word := v.setWidth 16

/-- `sext_16` (R7). -/
def sext16 {n : Nat} (v : BitVec n) : Word := v.signExtend 16

/-- `disp6`, the offset a T7 field stands for (R104, D8, log 14). -/
def disp6 (p : Disp6) (k : BitVec 6) : Word :=
  match p with
  | .biased => zext16 k - 16
  | .movedBoundary => if k.toNat < 48 then zext16 k else zext16 k - 64
  | .twosComplement => sext16 k

/-- The target of a relative jump, call or branch (R105, D4, log 10): the base plus the signed word offset. -/
def relTarget {n : Nat} (s : State) (a : BitVec n) : Word :=
  (match cfg.relBase with
    | .nextInstruction => pcPlus cfg.pcUnit s.pc 1
    | .branchItself => s.pc)
  + sext16 a * BitVec.ofNat 16 (unitsPerWord cfg.pcUnit)

/-- `Rn+Rs`, the address of the T5 loads and stores (41_alu3_ldst_reg.md). -/
def eaIndexed (s : State) (rn rs : Reg) : Word := s.reg rn + s.reg rs

/-- `Rn+K`, the address of the T7 loads and stores (42_imm_offset_sp.md). -/
def eaOffset (s : State) (rn : Reg) (k : BitVec 6) : Word := s.reg rn + disp6 cfg.disp6 k

/-- `SP+zext(K)`, the address of the T9 loads and stores (42_imm_offset_sp.md). -/
def eaStack (s : State) (k : BitVec 8) : Word := s.sp + zext16 k

/-- The two bytes of a word exchanged (44_zero_two_operand.md R219). -/
def swapBytes (v : Word) : Word := v.extractLsb' 0 8 ++ v.extractLsb' 8 8

end Sys2Proof.Machine
end

