-- ==== Sys2Proof/Machine/Flags.lean ====
section
/-! DEFINITION. The flags: condition codes (spec 10_state.md R33), the one adder and the flag-setting functions
(R35 to R39), the value of SAR (R31), and the ways an instruction ends that writes flags (R29). -/

namespace Sys2Proof.Machine

/-- `cond(cc)`, on V, S, C, Z alone (R33). -/
def condHolds (cc : Cond) (f : Sar) : Bool :=
  match cc with
  | .eq => f.z
  | .ne => !f.z
  | .uge => f.c
  | .ult => !f.c
  | .lt => f.s != f.v
  | .ge => f.s == f.v
  | .ugt => f.c && !f.z
  | .gt => f.s == f.v && !f.z

/-- What `AddC` returns (R35). -/
structure AddResult where
  r : Word
  c : Bool
  v : Bool
  s : Bool
  z : Bool
deriving DecidableEq, Repr

/-- `AddC(a, b, cin)`, the one adder (R35, D10, log 16). -/
def addC (a b : Word) (cin : Bool) : AddResult :=
  let u : BitVec 17 := a.setWidth 17 + b.setWidth 17 + (BitVec.ofBool cin).setWidth 17
  let r : Word := u.extractLsb' 0 16
  { r := r
    c := u.getLsbD 16
    v := a.getLsbD 15 == b.getLsbD 15 && r.getLsbD 15 != a.getLsbD 15
    s := r.getLsbD 15
    z := decide (r = 0x0000#16) }

/-- `a - b` as `AddC(a, ~b, 1)` (R39). -/
def subC (a b : Word) : AddResult := addC a (~~~b) true

/-- `SetSR_arith(f)` (R36). -/
def State.setSRArith (s : State) (f : AddResult) : State :=
  s.setSar { s.sar with v := f.v, s := f.s, c := f.c, z := f.z }

/-- `SetAR(f)` (R37, D11, D12, log 17). -/
def State.setAR (s : State) (f : AddResult) : State :=
  s.setSar { s.sar with ac := f.c, az := f.z }

/-- `SetSR_logic(r)` (R38): Z and S from the result; C and V per `LOGIC_CV`, by default two fresh free bits
(D13, log 18). -/
def State.setSRLogic (s : State) (r : Word) : State :=
  match cfg.logicCV with
  | .anyValue =>
    { s with
      sar := { s.sar with
        z := decide (r = 0x0000#16), s := r.getLsbD 15,
        c := Config.freeBit s.draws, v := Config.freeBit (s.draws + 1) },
      draws := s.draws + 2 }
  | .cleared =>
    s.setSar { s.sar with z := decide (r = 0x0000#16), s := r.getLsbD 15, c := false, v := false }
  | .unchanged => s.setSar { s.sar with z := decide (r = 0x0000#16), s := r.getLsbD 15 }

/-- The flags after a shift, per `SHIFT_FLAGS` (43_t11_one_reg.md R191, D15, log 20). -/
def State.setShiftFlags (s : State) : State :=
  match cfg.shiftFlags with
  | .unchanged => s
  | .anyValue =>
    { s with
      sar := { s.sar with
        v := Config.freeBit s.draws, s := Config.freeBit (s.draws + 1),
        c := Config.freeBit (s.draws + 2), z := Config.freeBit (s.draws + 3) },
      draws := s.draws + 4 }

/-- The value of the whole of SAR (R31, 90_conflicts.md C14, log 27). -/
def sarValue (f : Sar) : Word := Config.sarImage f.i f.v f.s f.c f.z f.ac f.az

/-! The ends of one-word instructions (R24, R29). -/

/-- A register written, no flag. -/
def State.endMove (s : State) (rd : Reg) (v : Word) : State := (s.setReg rd v).advance 1

/-- A register and SR, AR written from one addition. -/
def State.endArith (s : State) (rd : Reg) (f : AddResult) : State :=
  (((s.setReg rd f.r).setSRArith f).setAR f).advance 1

/-- SP and SR, AR written from one addition. -/
def State.endArithSp (s : State) (f : AddResult) : State :=
  (((s.setSp f.r).setSRArith f).setAR f).advance 1

/-- SR written from one addition, its result discarded. -/
def State.endCompare (s : State) (f : AddResult) : State := (s.setSRArith f).advance 1

/-- A register and SR written from a logic result. -/
def State.endLogic (s : State) (rd : Reg) (r : Word) : State := ((s.setReg rd r).setSRLogic r).advance 1

/-- A register written from a shift. -/
def State.endShift (s : State) (rd : Reg) (r : Word) : State := ((s.setReg rd r).setShiftFlags).advance 1

end Sys2Proof.Machine
end

