-- ==== Sys2Proof/Machine/Control.lean ====
section
/-! DEFINITION. Relative jump and call, conditional branch, set and select: spec 40_control_cond.md, T1 to T4. -/

namespace Sys2Proof.Machine

/-- `jmp Label`: `pc <- pc + 1 + sext(a)` (R120). -/
def execJmprel (a : BitVec 12) (st : State) : Host.Outcome State Fault Refusal :=
  .next (st.setPc (relTarget st a))

/-- `call Label`: the return address pushed, then the jump (R121, D18, log 23). -/
def execCallrel (a : BitVec 12) (st : State) : Host.Outcome State Fault Refusal :=
  callTo st (relTarget st a)

/-- `br%cc Label` (R122): the branch if the condition holds, otherwise the next instruction. -/
def branchIf (cc : Cond) (a : BitVec 9) (st : State) : Host.Outcome State Fault Refusal :=
  if condHolds cc st.sar then .next (st.setPc (relTarget st a)) else .next (st.advance 1)

/-- `set%cc Rd` (R123): all 16 bits of Rd are written, with 1 or 0. -/
def setIf (cc : Cond) (rd : Reg) (st : State) : Host.Outcome State Fault Refusal :=
  .next (st.endMove rd (if condHolds cc st.sar then 0x0001#16 else 0x0000#16))

/-- `sel%cc Rn, Rs, Rd` (R124): Rn if the condition holds, otherwise Rs. -/
def selectIf (cc : Cond) (rn rs rd : Reg) (st : State) : Host.Outcome State Fault Refusal :=
  .next (st.endMove rd (if condHolds cc st.sar then st.reg rn else st.reg rs))

/-- `breq` (R122). -/
def execBreq (a : BitVec 9) (st : State) : Host.Outcome State Fault Refusal :=
  branchIf .eq a st

/-- `brne` (R122). -/
def execBrne (a : BitVec 9) (st : State) : Host.Outcome State Fault Refusal :=
  branchIf .ne a st

/-- `bruge` (R122). -/
def execBruge (a : BitVec 9) (st : State) : Host.Outcome State Fault Refusal :=
  branchIf .uge a st

/-- `brult` (R122). -/
def execBrult (a : BitVec 9) (st : State) : Host.Outcome State Fault Refusal :=
  branchIf .ult a st

/-- `brlt` (R122). -/
def execBrlt (a : BitVec 9) (st : State) : Host.Outcome State Fault Refusal :=
  branchIf .lt a st

/-- `brge` (R122). -/
def execBrge (a : BitVec 9) (st : State) : Host.Outcome State Fault Refusal :=
  branchIf .ge a st

/-- `brugt` (R122). -/
def execBrugt (a : BitVec 9) (st : State) : Host.Outcome State Fault Refusal :=
  branchIf .ugt a st

/-- `brgt` (R122). -/
def execBrgt (a : BitVec 9) (st : State) : Host.Outcome State Fault Refusal :=
  branchIf .gt a st

/-- `seteq` (R123). -/
def execSeteq (rd : Reg) (st : State) : Host.Outcome State Fault Refusal :=
  setIf .eq rd st

/-- `setne` (R123). -/
def execSetne (rd : Reg) (st : State) : Host.Outcome State Fault Refusal :=
  setIf .ne rd st

/-- `setuge` (R123). -/
def execSetuge (rd : Reg) (st : State) : Host.Outcome State Fault Refusal :=
  setIf .uge rd st

/-- `setult` (R123). -/
def execSetult (rd : Reg) (st : State) : Host.Outcome State Fault Refusal :=
  setIf .ult rd st

/-- `setlt` (R123). -/
def execSetlt (rd : Reg) (st : State) : Host.Outcome State Fault Refusal :=
  setIf .lt rd st

/-- `setge` (R123). -/
def execSetge (rd : Reg) (st : State) : Host.Outcome State Fault Refusal :=
  setIf .ge rd st

/-- `setugt` (R123). -/
def execSetugt (rd : Reg) (st : State) : Host.Outcome State Fault Refusal :=
  setIf .ugt rd st

/-- `setgt` (R123). -/
def execSetgt (rd : Reg) (st : State) : Host.Outcome State Fault Refusal :=
  setIf .gt rd st

/-- `seleq` (R124). -/
def execSeleq (rn rs rd : Reg) (st : State) : Host.Outcome State Fault Refusal :=
  selectIf .eq rn rs rd st

/-- `selne` (R124). -/
def execSelne (rn rs rd : Reg) (st : State) : Host.Outcome State Fault Refusal :=
  selectIf .ne rn rs rd st

/-- `seluge` (R124). -/
def execSeluge (rn rs rd : Reg) (st : State) : Host.Outcome State Fault Refusal :=
  selectIf .uge rn rs rd st

/-- `selult` (R124). -/
def execSelult (rn rs rd : Reg) (st : State) : Host.Outcome State Fault Refusal :=
  selectIf .ult rn rs rd st

/-- `sellt` (R124). -/
def execSellt (rn rs rd : Reg) (st : State) : Host.Outcome State Fault Refusal :=
  selectIf .lt rn rs rd st

/-- `selge` (R124). -/
def execSelge (rn rs rd : Reg) (st : State) : Host.Outcome State Fault Refusal :=
  selectIf .ge rn rs rd st

/-- `selugt` (R124). -/
def execSelugt (rn rs rd : Reg) (st : State) : Host.Outcome State Fault Refusal :=
  selectIf .ugt rn rs rd st

/-- `selgt` (R124). -/
def execSelgt (rn rs rd : Reg) (st : State) : Host.Outcome State Fault Refusal :=
  selectIf .gt rn rs rd st

end Sys2Proof.Machine
end

