-- ==== Sys2Proof/Machine/Immediate.lean ====
section
/-! DEFINITION. Immediate logic, loads and stores with immediate offset, immediate move, compare, add and subtract,
SP-relative loads and stores, offset to SP: spec 42_imm_offset_sp.md, T6 to T10. -/

namespace Sys2Proof.Machine

/-- `and Rd, K, Rd`, K zero-extended (R150). -/
def execAndkr (rd : Reg) (k : BitVec 6) (st : State) : Host.Outcome State Fault Refusal :=
  .next (st.endLogic rd (st.reg rd &&& zext16 k))

/-- `or Rd, K, Rd`, K zero-extended (R151). -/
def execOrkr (rd : Reg) (k : BitVec 6) (st : State) : Host.Outcome State Fault Refusal :=
  .next (st.endLogic rd (st.reg rd ||| zext16 k))

/-- `ld.w [Rn, K], Rd` (R152). -/
def execMov16mr (rd rn : Reg) (k : BitVec 6) (st : State) : Host.Outcome State Fault Refusal :=
  loadWord st rd (eaOffset st rn k) 1

/-- `ld.sb [Rn, K], Rd` (R153). -/
def execMovs8mr (rd rn : Reg) (k : BitVec 6) (st : State) : Host.Outcome State Fault Refusal :=
  loadSignByte st rd (eaOffset st rn k) 1

/-- `st.w Rd, [Rn, K]` (R154). -/
def execMov16rm (rd rn : Reg) (k : BitVec 6) (st : State) : Host.Outcome State Fault Refusal :=
  storeWord st rd (eaOffset st rn k) 1

/-- `st.b Rd, [Rn, K]` (R155). -/
def execMov8rm (rd rn : Reg) (k : BitVec 6) (st : State) : Host.Outcome State Fault Refusal :=
  storeByte st rd (eaOffset st rn k) 1

/-- `mov K, Rd`, K sign-extended (R156). -/
def execMovkr (rd : Reg) (k : BitVec 8) (st : State) : Host.Outcome State Fault Refusal :=
  .next (st.endMove rd (sext16 k))

/-- `cmp Rd, K`: the flags of Rd minus sign-extended K, SR only (R157). -/
def execCmpkr (rd : Reg) (k : BitVec 8) (st : State) : Host.Outcome State Fault Refusal :=
  .next (st.endCompare (subC (st.reg rd) (sext16 k)))

/-- `add Rd, K, Rd`, K zero-extended (R158). -/
def execAddkr (rd : Reg) (k : BitVec 8) (st : State) : Host.Outcome State Fault Refusal :=
  .next (st.endArith rd (addC (st.reg rd) (zext16 k) false))

/-- `sub Rd, K, Rd`, K zero-extended (R159). -/
def execSubkr (rd : Reg) (k : BitVec 8) (st : State) : Host.Outcome State Fault Refusal :=
  .next (st.endArith rd (subC (st.reg rd) (zext16 k)))

/-- `ld.w [SP, K], Rd` (R160). -/
def execMov16qr (rd : Reg) (k : BitVec 8) (st : State) : Host.Outcome State Fault Refusal :=
  loadWord st rd (eaStack st k) 1

/-- `ld.sb [SP, K], Rd`, sign-extended (R161, 90_conflicts.md C9, log 38). -/
def execMovs8qr (rd : Reg) (k : BitVec 8) (st : State) : Host.Outcome State Fault Refusal :=
  loadSignByte st rd (eaStack st k) 1

/-- `st.w Rd, [SP, K]` (R162). -/
def execMov16rq (rd : Reg) (k : BitVec 8) (st : State) : Host.Outcome State Fault Refusal :=
  storeWord st rd (eaStack st k) 1

/-- `st.b Rd, [SP, K]` (R163). -/
def execMov8rq (rd : Reg) (k : BitVec 8) (st : State) : Host.Outcome State Fault Refusal :=
  storeByte st rd (eaStack st k) 1

/-- `add SP, K, SP`, K zero-extended, update SR, AR (R164). -/
def execAddks (k : BitVec 8) (st : State) : Host.Outcome State Fault Refusal :=
  .next (st.endArithSp (addC st.sp (zext16 k) false))

/-- `sub SP, K, SP`, K zero-extended, update SR, AR (R165). -/
def execSubks (k : BitVec 8) (st : State) : Host.Outcome State Fault Refusal :=
  .next (st.endArithSp (subC st.sp (zext16 k)))

end Sys2Proof.Machine
end

