-- ==== Sys2Proof/Machine/OneReg.lean ====
section
/-! DEFINITION. One-register instructions: stack, SP moves and arithmetic, indirect jump and call, `mov SR`, shifts,
negate, complement, and the two-word forms: spec 43_t11_one_reg.md, T11. -/

namespace Sys2Proof.Machine

/-- `push Rd`: decrement SP, store Rd at the new SP (R180, D17, log 22). -/
def execPush (rd : Reg) (st : State) : Host.Outcome State Fault Refusal :=
  continueWith (pushWord st (st.reg rd)) fun t => t.advance 1

/-- `pop Rd`: load from SP, then increment SP (R181, D17, log 22). -/
def execPop (rd : Reg) (st : State) : Host.Outcome State Fault Refusal :=
  continueWith (popWord st) fun p => (p.2.setReg rd p.1).advance 1

/-- `mov SP, Rd` (R182). -/
def execMovsr (rd : Reg) (st : State) : Host.Outcome State Fault Refusal :=
  .next (st.endMove rd st.sp)

/-- `mov Rd, SP` (R183): any value is accepted, odd ones too. -/
def execMovrs (rd : Reg) (st : State) : Host.Outcome State Fault Refusal :=
  .next ((st.setSp (st.reg rd)).advance 1)

/-- `add SP, Rd, SP`: SP = SP+Rd, update SR, AR (R184). -/
def execAddrs (rd : Reg) (st : State) : Host.Outcome State Fault Refusal :=
  .next (st.endArithSp (addC st.sp (st.reg rd) false))

/-- `sub SP, Rd, SP`: SP = SP-Rd, update SR, AR (R185). -/
def execSubrs (rd : Reg) (st : State) : Host.Outcome State Fault Refusal :=
  .next (st.endArithSp (subC st.sp (st.reg rd)))

/-- `add SP, Rd, Rd`: Rd = SP+Rd, update SR, AR (R186). -/
def execAddsr (rd : Reg) (st : State) : Host.Outcome State Fault Refusal :=
  .next (st.endArith rd (addC st.sp (st.reg rd) false))

/-- `sub SP, Rd, Rd`: Rd = SP-Rd, update SR, AR (R187). -/
def execSubsr (rd : Reg) (st : State) : Host.Outcome State Fault Refusal :=
  .next (st.endArith rd (subC st.sp (st.reg rd)))

/-- `jmp Rd`: an absolute program address (R188). -/
def execJmpreg (rd : Reg) (st : State) : Host.Outcome State Fault Refusal :=
  .next (st.setPc (st.reg rd))

/-- `call Rd` (R189, D18, log 23). -/
def execCallreg (rd : Reg) (st : State) : Host.Outcome State Fault Refusal :=
  callTo st (st.reg rd)

/-- `mov SR, Rd`: the whole of SAR (R190, 90_conflicts.md C14, D22, log 27). -/
def execMovSr (rd : Reg) (st : State) : Host.Outcome State Fault Refusal :=
  .next (st.endMove rd (sarValue st.sar))

/-- `lsr Rd`: one bit right, bit 15 becomes 0 (R191). -/
def execLsr (rd : Reg) (st : State) : Host.Outcome State Fault Refusal :=
  .next (st.endShift rd (st.reg rd >>> 1))

/-- `lsl Rd`: one bit left, bit 0 becomes 0 (R192). -/
def execLsl (rd : Reg) (st : State) : Host.Outcome State Fault Refusal :=
  .next (st.endShift rd (st.reg rd <<< 1))

/-- `asr Rd`: one bit right, bit 15 kept (R193). -/
def execAsr (rd : Reg) (st : State) : Host.Outcome State Fault Refusal :=
  .next (st.endShift rd ((st.reg rd).sshiftRight 1))

/-- `neg Rd`: the flags of 0 - Rd, SR only (R194, D14, log 19). -/
def execNeg (rd : Reg) (st : State) : Host.Outcome State Fault Refusal :=
  .next (((st.setReg rd (subC 0x0000#16 (st.reg rd)).r).setSRArith (subC 0x0000#16 (st.reg rd))).advance 1)

/-- `not Rd`, update SR (R195). -/
def execNot (rd : Reg) (st : State) : Host.Outcome State Fault Refusal :=
  .next (st.endLogic rd (~~~(st.reg rd)))

/-- `mov.w K, Rd`, K the second word (R196). -/
def execMovKr (rd : Reg) (k : Word) (st : State) : Host.Outcome State Fault Refusal :=
  .next ((st.setReg rd k).advance 2)

/-- `ld.w [A], Rd`, A the second word (R197). -/
def execMov16ar (rd : Reg) (a : Word) (st : State) : Host.Outcome State Fault Refusal :=
  loadWord st rd a 2

/-- `ld.zb [A], Rd` (R198). -/
def execMov8zar (rd : Reg) (a : Word) (st : State) : Host.Outcome State Fault Refusal :=
  loadZeroByte st rd a 2

/-- `ld.sb [A], Rd` (R199). -/
def execMov8sar (rd : Reg) (a : Word) (st : State) : Host.Outcome State Fault Refusal :=
  loadSignByte st rd a 2

/-- `st.w Rd, [A]` (R200). -/
def execMov16ra (rd : Reg) (a : Word) (st : State) : Host.Outcome State Fault Refusal :=
  storeWord st rd a 2

/-- `st.b Rd, [A]` (R201). -/
def execMov8ra (rd : Reg) (a : Word) (st : State) : Host.Outcome State Fault Refusal :=
  storeByte st rd a 2

end Sys2Proof.Machine
end

