-- ==== Sys2Proof/WellFormed.lean ====
section
/-! DEFINITION. Which terms of `Instr` are instructions of the hardware. Every operand field has exactly its
encoding's width by type, so the one check left is that the term is not one of the 14 reserved blocks
(30_encoding.md R101, R102). -/

namespace Sys2Proof

/-- Well-formed: one of the 87 instructions, no reserved block. -/
def Instr.wellFormed : Instr → Bool
  | .jmprel _ => true
  | .callrel _ => true
  | .breq _ => true
  | .brne _ => true
  | .bruge _ => true
  | .brult _ => true
  | .brlt _ => true
  | .brge _ => true
  | .brugt _ => true
  | .brgt _ => true
  | .seteq _ => true
  | .setne _ => true
  | .setuge _ => true
  | .setult _ => true
  | .setlt _ => true
  | .setge _ => true
  | .setugt _ => true
  | .setgt _ => true
  | .seleq _ _ _ => true
  | .selne _ _ _ => true
  | .seluge _ _ _ => true
  | .selult _ _ _ => true
  | .sellt _ _ _ => true
  | .selge _ _ _ => true
  | .selugt _ _ _ => true
  | .selgt _ _ _ => true
  | .addrrr _ _ _ => true
  | .adcrrr _ _ _ => true
  | .subrrr _ _ _ => true
  | .subcrrr _ _ _ => true
  | .orrrr _ _ _ => true
  | .andrrr _ _ _ => true
  | .xorrrr _ _ _ => true
  | .reservedT5_0111 _ => false
  | .mov16nr _ _ _ => true
  | .mov8znr _ _ _ => true
  | .mov8snr _ _ _ => true
  | .mov16rn _ _ _ => true
  | .mov8rn _ _ _ => true
  | .andkr _ _ => true
  | .orkr _ _ => true
  | .reservedT6_1x _ _ => false
  | .mov16mr _ _ _ => true
  | .movs8mr _ _ _ => true
  | .mov16rm _ _ _ => true
  | .mov8rm _ _ _ => true
  | .movkr _ _ => true
  | .cmpkr _ _ => true
  | .addkr _ _ => true
  | .subkr _ _ => true
  | .mov16qr _ _ => true
  | .movs8qr _ _ => true
  | .mov16rq _ _ => true
  | .mov8rq _ _ => true
  | .addks _ => true
  | .subks _ => true
  | .push _ => true
  | .pop _ => true
  | .movsr _ => true
  | .movrs _ => true
  | .addrs _ => true
  | .subrs _ => true
  | .addsr _ => true
  | .subsr _ => true
  | .jmpreg _ => true
  | .callreg _ => true
  | .reservedT11_010_01 _ => false
  | .reservedT11_011_01 _ => false
  | .reservedT11_100_01 _ => false
  | .reservedT11_101_01 _ => false
  | .reservedT11_110_01 _ => false
  | .movSr _ => true
  | .lsr _ => true
  | .lsl _ => true
  | .asr _ => true
  | .reservedT11_011_10 _ => false
  | .reservedT11_100_10 _ => false
  | .neg _ => true
  | .not _ => true
  | .reservedT11_111_10 _ => false
  | .movKr _ _ => true
  | .mov16ar _ _ => true
  | .mov8zar _ _ => true
  | .mov8sar _ _ => true
  | .mov16ra _ _ => true
  | .mov8ra _ _ => true
  | .reservedT11_110_11 _ => false
  | .reservedT11_111_11 _ => false
  | .ret => true
  | .reti => true
  | .dint => true
  | .eint => true
  | .reservedT12_1xx _ _ => false
  | .movrr _ _ => true
  | .cmprr _ _ => true
  | .zext _ _ => true
  | .sext _ _ => true
  | .bswap _ _ => true
  | .sextw _ _ => true
  | .reservedT13_110 _ => false
  | .mov16pr _ _ => true

/-- How many words the instruction occupies (10_state.md R24, 30_encoding.md R80): two for the six T11 instructions
whose operand is the next word, one for every other. -/
def Instr.words : Instr → Nat
  | .jmprel _ => 1
  | .callrel _ => 1
  | .breq _ => 1
  | .brne _ => 1
  | .bruge _ => 1
  | .brult _ => 1
  | .brlt _ => 1
  | .brge _ => 1
  | .brugt _ => 1
  | .brgt _ => 1
  | .seteq _ => 1
  | .setne _ => 1
  | .setuge _ => 1
  | .setult _ => 1
  | .setlt _ => 1
  | .setge _ => 1
  | .setugt _ => 1
  | .setgt _ => 1
  | .seleq _ _ _ => 1
  | .selne _ _ _ => 1
  | .seluge _ _ _ => 1
  | .selult _ _ _ => 1
  | .sellt _ _ _ => 1
  | .selge _ _ _ => 1
  | .selugt _ _ _ => 1
  | .selgt _ _ _ => 1
  | .addrrr _ _ _ => 1
  | .adcrrr _ _ _ => 1
  | .subrrr _ _ _ => 1
  | .subcrrr _ _ _ => 1
  | .orrrr _ _ _ => 1
  | .andrrr _ _ _ => 1
  | .xorrrr _ _ _ => 1
  | .reservedT5_0111 _ => 1
  | .mov16nr _ _ _ => 1
  | .mov8znr _ _ _ => 1
  | .mov8snr _ _ _ => 1
  | .mov16rn _ _ _ => 1
  | .mov8rn _ _ _ => 1
  | .andkr _ _ => 1
  | .orkr _ _ => 1
  | .reservedT6_1x _ _ => 1
  | .mov16mr _ _ _ => 1
  | .movs8mr _ _ _ => 1
  | .mov16rm _ _ _ => 1
  | .mov8rm _ _ _ => 1
  | .movkr _ _ => 1
  | .cmpkr _ _ => 1
  | .addkr _ _ => 1
  | .subkr _ _ => 1
  | .mov16qr _ _ => 1
  | .movs8qr _ _ => 1
  | .mov16rq _ _ => 1
  | .mov8rq _ _ => 1
  | .addks _ => 1
  | .subks _ => 1
  | .push _ => 1
  | .pop _ => 1
  | .movsr _ => 1
  | .movrs _ => 1
  | .addrs _ => 1
  | .subrs _ => 1
  | .addsr _ => 1
  | .subsr _ => 1
  | .jmpreg _ => 1
  | .callreg _ => 1
  | .reservedT11_010_01 _ => 1
  | .reservedT11_011_01 _ => 1
  | .reservedT11_100_01 _ => 1
  | .reservedT11_101_01 _ => 1
  | .reservedT11_110_01 _ => 1
  | .movSr _ => 1
  | .lsr _ => 1
  | .lsl _ => 1
  | .asr _ => 1
  | .reservedT11_011_10 _ => 1
  | .reservedT11_100_10 _ => 1
  | .neg _ => 1
  | .not _ => 1
  | .reservedT11_111_10 _ => 1
  | .movKr _ _ => 2
  | .mov16ar _ _ => 2
  | .mov8zar _ _ => 2
  | .mov8sar _ _ => 2
  | .mov16ra _ _ => 2
  | .mov8ra _ _ => 2
  | .reservedT11_110_11 _ => 1
  | .reservedT11_111_11 _ => 1
  | .ret => 1
  | .reti => 1
  | .dint => 1
  | .eint => 1
  | .reservedT12_1xx _ _ => 1
  | .movrr _ _ => 1
  | .cmprr _ _ => 1
  | .zext _ _ => 1
  | .sext _ _ => 1
  | .bswap _ _ => 1
  | .sextw _ _ => 1
  | .reservedT13_110 _ => 1
  | .mov16pr _ _ => 1

end Sys2Proof
end

