-- ==== Sys2Proof/Decode.lean ====
section
/-! DEFINITION. The decoder, the prefix tree of spec 30_encoding.md R96 with the op tables of R83 to R95, R98, R99,
and after it the encoder, written from the same tables. Bits marked x are ignored by the decoder and 0 from the
encoder (R100). A first word always decodes; what can be missing is a word of the program, and that is refused
by name. -/

namespace Sys2Proof

/-- The register a 3-bit field selects (R82). -/
def Reg.ofBits (b : BitVec 3) : Reg :=
  match b with
  | 0b000#3 => .r0
  | 0b001#3 => .r1
  | 0b010#3 => .r2
  | 0b011#3 => .r3
  | 0b100#3 => .r4
  | 0b101#3 => .r5
  | 0b110#3 => .r6
  | 0b111#3 => .r7

/-- The field that selects a register (R82). -/
def Reg.bits : Reg → BitVec 3
  | .r0 => 0b000#3
  | .r1 => 0b001#3
  | .r2 => 0b010#3
  | .r3 => 0b011#3
  | .r4 => 0b100#3
  | .r5 => 0b101#3
  | .r6 => 0b110#3
  | .r7 => 0b111#3

/-- The register field `w[lo+2:lo]`. -/
def regAt (w : Word) (lo : Nat) : Reg := Reg.ofBits (w.extractLsb' lo 3)

/-- The six instructions whose operand is the next instruction word (R80, R99 column op2 = 11). -/
inductive WideOp
  | movKr | mov16ar | mov8zar | mov8sar | mov16ra | mov8ra
deriving DecidableEq, Repr

/-- The instruction a two-word form makes of its register and its second word. -/
def WideOp.instr : WideOp → Reg → Word → Instr
  | .movKr, rd, w2 => .movKr rd w2
  | .mov16ar, rd, w2 => .mov16ar rd w2
  | .mov8zar, rd, w2 => .mov8zar rd w2
  | .mov8sar, rd, w2 => .mov8sar rd w2
  | .mov16ra, rd, w2 => .mov16ra rd w2
  | .mov8ra, rd, w2 => .mov8ra rd w2

/-- What the first word alone settles: a whole instruction, or a form that takes a second word (R107). -/
inductive FirstWord
  | whole (i : Instr)
  | wide (op : WideOp) (rd : Reg)
deriving DecidableEq, Repr

/-- T1 (R83). -/
def decodeT1 (w : Word) : Instr :=
  let a := w.extractLsb' 0 12
  match w.extractLsb' 12 1 with
  | 0b0#1 => .jmprel a
  | 0b1#1 => .callrel a

/-- T2 (R84). -/
def decodeT2 (w : Word) : Instr :=
  let a := w.extractLsb' 0 9
  match w.extractLsb' 9 3 with
  | 0b000#3 => .breq a
  | 0b001#3 => .brne a
  | 0b010#3 => .bruge a
  | 0b011#3 => .brult a
  | 0b100#3 => .brlt a
  | 0b101#3 => .brge a
  | 0b110#3 => .brugt a
  | 0b111#3 => .brgt a

/-- T3 (R85). -/
def decodeT3 (w : Word) : Instr :=
  let rd := regAt w 0
  match w.extractLsb' 9 3 with
  | 0b000#3 => .seteq rd
  | 0b001#3 => .setne rd
  | 0b010#3 => .setuge rd
  | 0b011#3 => .setult rd
  | 0b100#3 => .setlt rd
  | 0b101#3 => .setge rd
  | 0b110#3 => .setugt rd
  | 0b111#3 => .setgt rd

/-- T4 (R86). -/
def decodeT4 (w : Word) : Instr :=
  let rn := regAt w 6
  let rs := regAt w 3
  let rd := regAt w 0
  match w.extractLsb' 9 3 with
  | 0b000#3 => .seleq rn rs rd
  | 0b001#3 => .selne rn rs rd
  | 0b010#3 => .seluge rn rs rd
  | 0b011#3 => .selult rn rs rd
  | 0b100#3 => .sellt rn rs rd
  | 0b101#3 => .selge rn rs rd
  | 0b110#3 => .selugt rn rs rd
  | 0b111#3 => .selgt rn rs rd

/-- T5 (R87, R98), on op[3:1] and op[0]: bit 9 is ignored in `100x`, `110x`, `111x`. -/
def decodeT5 (w : Word) : Instr :=
  let rn := regAt w 6
  let rs := regAt w 3
  let rd := regAt w 0
  match w.extractLsb' 10 3, w.extractLsb' 9 1 with
  | 0b000#3, 0b0#1 => .addrrr rn rs rd
  | 0b000#3, 0b1#1 => .adcrrr rn rs rd
  | 0b001#3, 0b0#1 => .subrrr rn rs rd
  | 0b001#3, 0b1#1 => .subcrrr rn rs rd
  | 0b010#3, 0b0#1 => .orrrr rn rs rd
  | 0b010#3, 0b1#1 => .andrrr rn rs rd
  | 0b011#3, 0b0#1 => .xorrrr rn rs rd
  | 0b011#3, 0b1#1 => .reservedT5_0111 (w.extractLsb' 0 9)
  | 0b100#3, _ => .mov16nr rn rs rd
  | 0b101#3, 0b0#1 => .mov8znr rn rs rd
  | 0b101#3, 0b1#1 => .mov8snr rn rs rd
  | 0b110#3, _ => .mov16rn rn rs rd
  | 0b111#3, _ => .mov8rn rn rs rd

/-- T6 (R88): op 1x is reserved, whatever bit 6 is (R101). -/
def decodeT6 (w : Word) : Instr :=
  let rd := regAt w 9
  let k := w.extractLsb' 0 6
  match w.extractLsb' 6 2 with
  | 0b00#2 => .andkr rd k
  | 0b01#2 => .orkr rd k
  | 0b10#2 => .reservedT6_1x (w.extractLsb' 9 3) (w.extractLsb' 0 7)
  | 0b11#2 => .reservedT6_1x (w.extractLsb' 9 3) (w.extractLsb' 0 7)

/-- T7 (R89). -/
def decodeT7 (w : Word) : Instr :=
  let rd := regAt w 9
  let rn := regAt w 6
  let k := w.extractLsb' 0 6
  match w.extractLsb' 12 2 with
  | 0b00#2 => .mov16mr rd rn k
  | 0b01#2 => .movs8mr rd rn k
  | 0b10#2 => .mov16rm rd rn k
  | 0b11#2 => .mov8rm rd rn k

/-- T8 (R90). -/
def decodeT8 (w : Word) : Instr :=
  let rd := regAt w 9
  let k := w.extractLsb' 0 8
  match w.extractLsb' 12 2 with
  | 0b00#2 => .movkr rd k
  | 0b01#2 => .cmpkr rd k
  | 0b10#2 => .addkr rd k
  | 0b11#2 => .subkr rd k

/-- T9 (R91). -/
def decodeT9 (w : Word) : Instr :=
  let rd := regAt w 9
  let k := w.extractLsb' 0 8
  match w.extractLsb' 12 2 with
  | 0b00#2 => .mov16qr rd k
  | 0b01#2 => .movs8qr rd k
  | 0b10#2 => .mov16rq rd k
  | 0b11#2 => .mov8rq rd k

/-- T10 (R92): bits 10:9 are ignored. -/
def decodeT10 (w : Word) : Instr :=
  let k := w.extractLsb' 0 8
  match w.extractLsb' 11 1 with
  | 0b0#1 => .addks k
  | 0b1#1 => .subks k

/-- T11 (R93, R99): one column of the table of R99 per `op2`, one row per `op`; bits 4:3 are ignored. -/
def decodeT11 (w : Word) : FirstWord :=
  let rd := regAt w 0
  let x := w.extractLsb' 0 5
  match w.extractLsb' 5 2, w.extractLsb' 9 3 with
  | 0b00#2, 0b000#3 => .whole (.push rd)
  | 0b00#2, 0b001#3 => .whole (.pop rd)
  | 0b00#2, 0b010#3 => .whole (.movsr rd)
  | 0b00#2, 0b011#3 => .whole (.movrs rd)
  | 0b00#2, 0b100#3 => .whole (.addrs rd)
  | 0b00#2, 0b101#3 => .whole (.subrs rd)
  | 0b00#2, 0b110#3 => .whole (.addsr rd)
  | 0b00#2, 0b111#3 => .whole (.subsr rd)
  | 0b01#2, 0b000#3 => .whole (.jmpreg rd)
  | 0b01#2, 0b001#3 => .whole (.callreg rd)
  | 0b01#2, 0b010#3 => .whole (.reservedT11_010_01 x)
  | 0b01#2, 0b011#3 => .whole (.reservedT11_011_01 x)
  | 0b01#2, 0b100#3 => .whole (.reservedT11_100_01 x)
  | 0b01#2, 0b101#3 => .whole (.reservedT11_101_01 x)
  | 0b01#2, 0b110#3 => .whole (.reservedT11_110_01 x)
  | 0b01#2, 0b111#3 => .whole (.movSr rd)
  | 0b10#2, 0b000#3 => .whole (.lsr rd)
  | 0b10#2, 0b001#3 => .whole (.lsl rd)
  | 0b10#2, 0b010#3 => .whole (.asr rd)
  | 0b10#2, 0b011#3 => .whole (.reservedT11_011_10 x)
  | 0b10#2, 0b100#3 => .whole (.reservedT11_100_10 x)
  | 0b10#2, 0b101#3 => .whole (.neg rd)
  | 0b10#2, 0b110#3 => .whole (.not rd)
  | 0b10#2, 0b111#3 => .whole (.reservedT11_111_10 x)
  | 0b11#2, 0b000#3 => .wide .movKr rd
  | 0b11#2, 0b001#3 => .wide .mov16ar rd
  | 0b11#2, 0b010#3 => .wide .mov8zar rd
  | 0b11#2, 0b011#3 => .wide .mov8sar rd
  | 0b11#2, 0b100#3 => .wide .mov16ra rd
  | 0b11#2, 0b101#3 => .wide .mov8ra rd
  | 0b11#2, 0b110#3 => .whole (.reservedT11_110_11 x)
  | 0b11#2, 0b111#3 => .whole (.reservedT11_111_11 x)

/-- T12 (R94): bits 6:0 are ignored. -/
def decodeT12 (w : Word) : Instr :=
  match w.extractLsb' 9 3 with
  | 0b000#3 => .ret
  | 0b001#3 => .reti
  | 0b010#3 => .dint
  | 0b011#3 => .eint
  | 0b100#3 => .reservedT12_1xx (w.extractLsb' 9 2) (w.extractLsb' 0 7)
  | 0b101#3 => .reservedT12_1xx (w.extractLsb' 9 2) (w.extractLsb' 0 7)
  | 0b110#3 => .reservedT12_1xx (w.extractLsb' 9 2) (w.extractLsb' 0 7)
  | 0b111#3 => .reservedT12_1xx (w.extractLsb' 9 2) (w.extractLsb' 0 7)

/-- T13 (R95): bit 6 is ignored. -/
def decodeT13 (w : Word) : Instr :=
  let rs := regAt w 3
  let rd := regAt w 0
  match w.extractLsb' 9 3 with
  | 0b000#3 => .movrr rs rd
  | 0b001#3 => .cmprr rs rd
  | 0b010#3 => .zext rs rd
  | 0b011#3 => .sext rs rd
  | 0b100#3 => .bswap rs rd
  | 0b101#3 => .sextw rs rd
  | 0b110#3 => .reservedT13_110 (w.extractLsb' 0 7)
  | 0b111#3 => .mov16pr rs rd

/-- The prefix tree over the first word, line for line as R96 prints it. -/
def decodeFirst (w : Word) : FirstWord :=
  if w.extractLsb' 13 3 = 0b111#3 then .whole (decodeT1 w)
  else if w.extractLsb' 12 4 = 0b1101#4 then .whole (decodeT2 w)
  else if w.extractLsb' 12 4 = 0b1100#4 ∧ w.extractLsb' 8 1 = 0b1#1 then .whole (decodeT6 w)
  else if w.extractLsb' 12 4 = 0b1100#4 then .whole (decodeT10 w)
  else if w.extractLsb' 14 2 = 0b10#2 then .whole (decodeT7 w)
  else if w.extractLsb' 14 2 = 0b01#2 ∧ w.extractLsb' 8 1 = 0b1#1 then .whole (decodeT8 w)
  else if w.extractLsb' 14 2 = 0b01#2 then .whole (decodeT9 w)
  else if w.extractLsb' 13 3 = 0b001#3 then .whole (decodeT5 w)
  else if w.extractLsb' 12 4 = 0b0001#4 then .whole (decodeT4 w)
  else if w.extractLsb' 7 2 = 0b11#2 then .whole (decodeT3 w)
  else if w.extractLsb' 7 2 = 0b10#2 then decodeT11 w
  else if w.extractLsb' 7 2 = 0b01#2 then .whole (decodeT12 w)
  else .whole (decodeT13 w)

/-- Why a list of words holds no instruction at its front. -/
inductive DecodeRefusal
  | noFirstWord    -- the list is empty
  | noSecondWord   -- a two-word form, and the list ends after its first word
deriving DecidableEq, Repr

/-- The instruction at the front of a list of instruction words, and the words after it. -/
def decode : List Word → Except DecodeRefusal (Instr × List Word)
  | [] => .error .noFirstWord
  | w :: rest =>
    match decodeFirst w, rest with
    | .whole i, _ => .ok (i, rest)
    | .wide _ _, [] => .error .noSecondWord
    | .wide op rd, w2 :: rest' => .ok (op.instr rd w2, rest')

/-- The words of an instruction whose bits are `w`, bit 0 the least significant bit of the first word and bit 16
that of the second, every bit from `nbits` up being 0, as many words as the longest instruction has. -/
def tableWords (nbits w : Nat) : List Word :=
  [BitVec.ofNat 16 (w % 2 ^ nbits), BitVec.ofNat 16 (w % 2 ^ nbits / 2 ^ 16)]

/-- The host's question: the instruction the decoder reads from those words. -/
def decodeTableWord (nbits w : Nat) : Option Instr :=
  match decode (tableWords nbits w) with
  | .ok (i, _) => some i
  | .error _ => none

/-! The encoder. -/

/-- A field's value placed with its bit 0 at bit `lo` of a word. -/
def place {n : Nat} (v : BitVec n) (lo : Nat) : Word := v.setWidth 16 <<< lo

/-- `111 o aaaaaaaaaaaa` (R83). -/
def wordT1 (o : BitVec 1) (a : BitVec 12) : Word := 0xE000#16 ||| place o 12 ||| place a 0

/-- `1101 ccc aaaaaaaaa` (R84). -/
def wordT2 (cc : BitVec 3) (a : BitVec 9) : Word := 0xD000#16 ||| place cc 9 ||| place a 0

/-- `0000 ccc 11 0000 ddd` (R85). -/
def wordT3 (cc : BitVec 3) (rd : Reg) : Word := 0x0180#16 ||| place cc 9 ||| place rd.bits 0

/-- `0001 ccc nnn sss ddd` (R86). -/
def wordT4 (cc : BitVec 3) (rn rs rd : Reg) : Word :=
  0x1000#16 ||| place cc 9 ||| place rn.bits 6 ||| place rs.bits 3 ||| place rd.bits 0

/-- `001 oooo nnn sss ddd` (R87). -/
def wordT5 (op : BitVec 4) (rn rs rd : Reg) : Word :=
  0x2000#16 ||| place op 9 ||| place rn.bits 6 ||| place rs.bits 3 ||| place rd.bits 0

/-- `1100 ddd 1 oo kkkkkk` (R88). -/
def wordT6 (op : BitVec 2) (rd : Reg) (k : BitVec 6) : Word :=
  0xC100#16 ||| place rd.bits 9 ||| place op 6 ||| place k 0

/-- `10 oo ddd nnn kkkkkk` (R89). -/
def wordT7 (op : BitVec 2) (rd rn : Reg) (k : BitVec 6) : Word :=
  0x8000#16 ||| place op 12 ||| place rd.bits 9 ||| place rn.bits 6 ||| place k 0

/-- `01 oo ddd 1 kkkkkkkk` (R90). -/
def wordT8 (op : BitVec 2) (rd : Reg) (k : BitVec 8) : Word :=
  0x4100#16 ||| place op 12 ||| place rd.bits 9 ||| place k 0

/-- `01 oo ddd 0 kkkkkkkk` (R91). -/
def wordT9 (op : BitVec 2) (rd : Reg) (k : BitVec 8) : Word :=
  0x4000#16 ||| place op 12 ||| place rd.bits 9 ||| place k 0

/-- `1100 o 00 0 kkkkkkkk` (R92). -/
def wordT10 (o : BitVec 1) (k : BitVec 8) : Word := 0xC000#16 ||| place o 11 ||| place k 0

/-- `0000 ooo 10 pp 00 ddd` (R93). -/
def wordT11 (op : BitVec 3) (op2 : BitVec 2) (rd : Reg) : Word :=
  0x0100#16 ||| place op 9 ||| place op2 5 ||| place rd.bits 0

/-- `0000 ooo 10 pp xxxxx`, a reserved T11 encoding with its unused bits (R101). -/
def wordT11Reserved (op : BitVec 3) (op2 : BitVec 2) (x : BitVec 5) : Word :=
  0x0100#16 ||| place op 9 ||| place op2 5 ||| place x 0

/-- `0000 ooo 01 0000000` (R94). -/
def wordT12 (op : BitVec 3) : Word := 0x0080#16 ||| place op 9

/-- `0000 ooo 00 0 sss ddd` (R95). -/
def wordT13 (op : BitVec 3) (rs rd : Reg) : Word := place op 9 ||| place rs.bits 3 ||| place rd.bits 0

/-- `001 0111 xxxxxxxxx` (R101). -/
def wordReservedT5 (x : BitVec 9) : Word := 0x2E00#16 ||| place x 0

/-- `1100 xxx 11 yyyyyyy` (R101). -/
def wordReservedT6 (x : BitVec 3) (y : BitVec 7) : Word := 0xC180#16 ||| place x 9 ||| place y 0

/-- `00001 xx 01 yyyyyyy` (R101). -/
def wordReservedT12 (x : BitVec 2) (y : BitVec 7) : Word := 0x0880#16 ||| place x 9 ||| place y 0

/-- `0000 110 00 xxxxxxx` (R101). -/
def wordReservedT13 (x : BitVec 7) : Word := 0x0C00#16 ||| place x 0

/-- The words of an instruction, every x bit 0 (R100). -/
def encode : Instr → List Word
  | .jmprel a => [wordT1 0b0#1 a]
  | .callrel a => [wordT1 0b1#1 a]
  | .breq a => [wordT2 0b000#3 a]
  | .brne a => [wordT2 0b001#3 a]
  | .bruge a => [wordT2 0b010#3 a]
  | .brult a => [wordT2 0b011#3 a]
  | .brlt a => [wordT2 0b100#3 a]
  | .brge a => [wordT2 0b101#3 a]
  | .brugt a => [wordT2 0b110#3 a]
  | .brgt a => [wordT2 0b111#3 a]
  | .seteq rd => [wordT3 0b000#3 rd]
  | .setne rd => [wordT3 0b001#3 rd]
  | .setuge rd => [wordT3 0b010#3 rd]
  | .setult rd => [wordT3 0b011#3 rd]
  | .setlt rd => [wordT3 0b100#3 rd]
  | .setge rd => [wordT3 0b101#3 rd]
  | .setugt rd => [wordT3 0b110#3 rd]
  | .setgt rd => [wordT3 0b111#3 rd]
  | .seleq rn rs rd => [wordT4 0b000#3 rn rs rd]
  | .selne rn rs rd => [wordT4 0b001#3 rn rs rd]
  | .seluge rn rs rd => [wordT4 0b010#3 rn rs rd]
  | .selult rn rs rd => [wordT4 0b011#3 rn rs rd]
  | .sellt rn rs rd => [wordT4 0b100#3 rn rs rd]
  | .selge rn rs rd => [wordT4 0b101#3 rn rs rd]
  | .selugt rn rs rd => [wordT4 0b110#3 rn rs rd]
  | .selgt rn rs rd => [wordT4 0b111#3 rn rs rd]
  | .addrrr rn rs rd => [wordT5 0b0000#4 rn rs rd]
  | .adcrrr rn rs rd => [wordT5 0b0001#4 rn rs rd]
  | .subrrr rn rs rd => [wordT5 0b0010#4 rn rs rd]
  | .subcrrr rn rs rd => [wordT5 0b0011#4 rn rs rd]
  | .orrrr rn rs rd => [wordT5 0b0100#4 rn rs rd]
  | .andrrr rn rs rd => [wordT5 0b0101#4 rn rs rd]
  | .xorrrr rn rs rd => [wordT5 0b0110#4 rn rs rd]
  | .reservedT5_0111 x => [wordReservedT5 x]
  | .mov16nr rn rs rd => [wordT5 0b1000#4 rn rs rd]
  | .mov8znr rn rs rd => [wordT5 0b1010#4 rn rs rd]
  | .mov8snr rn rs rd => [wordT5 0b1011#4 rn rs rd]
  | .mov16rn rn rs rd => [wordT5 0b1100#4 rn rs rd]
  | .mov8rn rn rs rd => [wordT5 0b1110#4 rn rs rd]
  | .andkr rd k => [wordT6 0b00#2 rd k]
  | .orkr rd k => [wordT6 0b01#2 rd k]
  | .reservedT6_1x x y => [wordReservedT6 x y]
  | .mov16mr rd rn k => [wordT7 0b00#2 rd rn k]
  | .movs8mr rd rn k => [wordT7 0b01#2 rd rn k]
  | .mov16rm rd rn k => [wordT7 0b10#2 rd rn k]
  | .mov8rm rd rn k => [wordT7 0b11#2 rd rn k]
  | .movkr rd k => [wordT8 0b00#2 rd k]
  | .cmpkr rd k => [wordT8 0b01#2 rd k]
  | .addkr rd k => [wordT8 0b10#2 rd k]
  | .subkr rd k => [wordT8 0b11#2 rd k]
  | .mov16qr rd k => [wordT9 0b00#2 rd k]
  | .movs8qr rd k => [wordT9 0b01#2 rd k]
  | .mov16rq rd k => [wordT9 0b10#2 rd k]
  | .mov8rq rd k => [wordT9 0b11#2 rd k]
  | .addks k => [wordT10 0b0#1 k]
  | .subks k => [wordT10 0b1#1 k]
  | .push rd => [wordT11 0b000#3 0b00#2 rd]
  | .pop rd => [wordT11 0b001#3 0b00#2 rd]
  | .movsr rd => [wordT11 0b010#3 0b00#2 rd]
  | .movrs rd => [wordT11 0b011#3 0b00#2 rd]
  | .addrs rd => [wordT11 0b100#3 0b00#2 rd]
  | .subrs rd => [wordT11 0b101#3 0b00#2 rd]
  | .addsr rd => [wordT11 0b110#3 0b00#2 rd]
  | .subsr rd => [wordT11 0b111#3 0b00#2 rd]
  | .jmpreg rd => [wordT11 0b000#3 0b01#2 rd]
  | .callreg rd => [wordT11 0b001#3 0b01#2 rd]
  | .reservedT11_010_01 x => [wordT11Reserved 0b010#3 0b01#2 x]
  | .reservedT11_011_01 x => [wordT11Reserved 0b011#3 0b01#2 x]
  | .reservedT11_100_01 x => [wordT11Reserved 0b100#3 0b01#2 x]
  | .reservedT11_101_01 x => [wordT11Reserved 0b101#3 0b01#2 x]
  | .reservedT11_110_01 x => [wordT11Reserved 0b110#3 0b01#2 x]
  | .movSr rd => [wordT11 0b111#3 0b01#2 rd]
  | .lsr rd => [wordT11 0b000#3 0b10#2 rd]
  | .lsl rd => [wordT11 0b001#3 0b10#2 rd]
  | .asr rd => [wordT11 0b010#3 0b10#2 rd]
  | .reservedT11_011_10 x => [wordT11Reserved 0b011#3 0b10#2 x]
  | .reservedT11_100_10 x => [wordT11Reserved 0b100#3 0b10#2 x]
  | .neg rd => [wordT11 0b101#3 0b10#2 rd]
  | .not rd => [wordT11 0b110#3 0b10#2 rd]
  | .reservedT11_111_10 x => [wordT11Reserved 0b111#3 0b10#2 x]
  | .movKr rd k => [wordT11 0b000#3 0b11#2 rd, k]
  | .mov16ar rd a => [wordT11 0b001#3 0b11#2 rd, a]
  | .mov8zar rd a => [wordT11 0b010#3 0b11#2 rd, a]
  | .mov8sar rd a => [wordT11 0b011#3 0b11#2 rd, a]
  | .mov16ra rd a => [wordT11 0b100#3 0b11#2 rd, a]
  | .mov8ra rd a => [wordT11 0b101#3 0b11#2 rd, a]
  | .reservedT11_110_11 x => [wordT11Reserved 0b110#3 0b11#2 x]
  | .reservedT11_111_11 x => [wordT11Reserved 0b111#3 0b11#2 x]
  | .ret => [wordT12 0b000#3]
  | .reti => [wordT12 0b001#3]
  | .dint => [wordT12 0b010#3]
  | .eint => [wordT12 0b011#3]
  | .reservedT12_1xx x y => [wordReservedT12 x y]
  | .movrr rs rd => [wordT13 0b000#3 rs rd]
  | .cmprr rs rd => [wordT13 0b001#3 rs rd]
  | .zext rs rd => [wordT13 0b010#3 rs rd]
  | .sext rs rd => [wordT13 0b011#3 rs rd]
  | .bswap rs rd => [wordT13 0b100#3 rs rd]
  | .sextw rs rd => [wordT13 0b101#3 rs rd]
  | .reservedT13_110 x => [wordReservedT13 x]
  | .mov16pr rs rd => [wordT13 0b111#3 rs rd]

/-- The first word of an instruction: the word a reserved block's fault names (R101). -/
def firstWord (i : Instr) : Word := (encode i).headD 0

end Sys2Proof
end

