-- ==== Sys2Proof/Machine/Reserved.lean ====
section
/-! DEFINITION. The 14 reserved blocks: spec 30_encoding.md R101, 41_alu3_ldst_reg.md R137, 42_imm_offset_sp.md R166,
43_t11_one_reg.md R202, 44_zero_two_operand.md R214, R222. The source marks them reserved and gives no effect; the
spec's fault names the word (D21, log 26). -/

namespace Sys2Proof.Machine

/-- ReservedEncoding(w), `w` the first word, no state changed (R101, R231). -/
def reservedWord (i : Instr) : Host.Outcome State Fault Refusal := raise (.reservedEncoding (firstWord i))

/-- T5 op 0111, R137; `x` is w[8:0]. -/
def execReservedT5_0111 (x : BitVec 9) (_st : State) : Host.Outcome State Fault Refusal :=
  reservedWord (.reservedT5_0111 x)

/-- T6 op 10 and 11, R166; `x` is w[11:9], `y` is w[6:0]. -/
def execReservedT6_1x (x : BitVec 3) (y : BitVec 7) (_st : State) : Host.Outcome State Fault Refusal :=
  reservedWord (.reservedT6_1x x y)

/-- T11 "010 01", R202; `x` is w[4:0]. -/
def execReservedT11_010_01 (x : BitVec 5) (_st : State) : Host.Outcome State Fault Refusal :=
  reservedWord (.reservedT11_010_01 x)

/-- T11 "011 01", R202; `x` is w[4:0]. -/
def execReservedT11_011_01 (x : BitVec 5) (_st : State) : Host.Outcome State Fault Refusal :=
  reservedWord (.reservedT11_011_01 x)

/-- T11 "100 01", R202; `x` is w[4:0]. -/
def execReservedT11_100_01 (x : BitVec 5) (_st : State) : Host.Outcome State Fault Refusal :=
  reservedWord (.reservedT11_100_01 x)

/-- T11 "101 01", R202; `x` is w[4:0]. -/
def execReservedT11_101_01 (x : BitVec 5) (_st : State) : Host.Outcome State Fault Refusal :=
  reservedWord (.reservedT11_101_01 x)

/-- T11 "110 01", R202; `x` is w[4:0]. -/
def execReservedT11_110_01 (x : BitVec 5) (_st : State) : Host.Outcome State Fault Refusal :=
  reservedWord (.reservedT11_110_01 x)

/-- T11 "011 10", R202; `x` is w[4:0]. -/
def execReservedT11_011_10 (x : BitVec 5) (_st : State) : Host.Outcome State Fault Refusal :=
  reservedWord (.reservedT11_011_10 x)

/-- T11 "100 10", R202; `x` is w[4:0]. -/
def execReservedT11_100_10 (x : BitVec 5) (_st : State) : Host.Outcome State Fault Refusal :=
  reservedWord (.reservedT11_100_10 x)

/-- T11 "111 10", R202; `x` is w[4:0]. -/
def execReservedT11_111_10 (x : BitVec 5) (_st : State) : Host.Outcome State Fault Refusal :=
  reservedWord (.reservedT11_111_10 x)

/-- T11 "110 11", R202; `x` is w[4:0]. -/
def execReservedT11_110_11 (x : BitVec 5) (_st : State) : Host.Outcome State Fault Refusal :=
  reservedWord (.reservedT11_110_11 x)

/-- T11 "111 11", R202; `x` is w[4:0]. -/
def execReservedT11_111_11 (x : BitVec 5) (_st : State) : Host.Outcome State Fault Refusal :=
  reservedWord (.reservedT11_111_11 x)

/-- T12 op 100 to 111, R214; `x` is w[10:9], `y` is w[6:0]. -/
def execReservedT12_1xx (x : BitVec 2) (y : BitVec 7) (_st : State) : Host.Outcome State Fault Refusal :=
  reservedWord (.reservedT12_1xx x y)

/-- T13 op 110, R222; `x` is w[6:0]. -/
def execReservedT13_110 (x : BitVec 7) (_st : State) : Host.Outcome State Fault Refusal :=
  reservedWord (.reservedT13_110 x)

end Sys2Proof.Machine
end

