-- ==== Sys2Proof/Machine/ThreeReg.lean ====
section
/-! DEFINITION. Three-register ALU operations, loads and stores with register offset: spec 41_alu3_ldst_reg.md, T5. -/

namespace Sys2Proof.Machine

/-- `add Rn, Rs, Rd`: Rd = Rn+Rs, update SR, AR (R130). -/
def execAddrrr (rn rs rd : Reg) (st : State) : Host.Outcome State Fault Refusal :=
  .next (st.endArith rd (addC (st.reg rn) (st.reg rs) false))

/-- `addc Rn, Rs, Rd`: Rd = Rn+(Rs+AC), the carry in being AC, not C (R131). -/
def execAdcrrr (rn rs rd : Reg) (st : State) : Host.Outcome State Fault Refusal :=
  .next (st.endArith rd (addC (st.reg rn) (st.reg rs) st.sar.ac))

/-- `sub Rn, Rs, Rd`: Rd = Rn-Rs, update SR, AR (R132). -/
def execSubrrr (rn rs rd : Reg) (st : State) : Host.Outcome State Fault Refusal :=
  .next (st.endArith rd (subC (st.reg rn) (st.reg rs)))

/-- `subc Rn, Rs, Rd`: Rd = Rn-(Rs+!AC) (R133). -/
def execSubcrrr (rn rs rd : Reg) (st : State) : Host.Outcome State Fault Refusal :=
  .next (st.endArith rd (addC (st.reg rn) (~~~(st.reg rs)) st.sar.ac))

/-- `or Rn, Rs, Rd`, update SR (R134). -/
def execOrrrr (rn rs rd : Reg) (st : State) : Host.Outcome State Fault Refusal :=
  .next (st.endLogic rd (st.reg rn ||| st.reg rs))

/-- `and Rn, Rs, Rd`, update SR (R135). -/
def execAndrrr (rn rs rd : Reg) (st : State) : Host.Outcome State Fault Refusal :=
  .next (st.endLogic rd (st.reg rn &&& st.reg rs))

/-- `xor Rn, Rs, Rd`, update SR (R136). -/
def execXorrrr (rn rs rd : Reg) (st : State) : Host.Outcome State Fault Refusal :=
  .next (st.endLogic rd (st.reg rn ^^^ st.reg rs))

/-- `ld.w [Rn, Rs], Rd` (R138). -/
def execMov16nr (rn rs rd : Reg) (st : State) : Host.Outcome State Fault Refusal :=
  loadWord st rd (eaIndexed st rn rs) 1

/-- `ld.zb [Rn, Rs], Rd` (R139). -/
def execMov8znr (rn rs rd : Reg) (st : State) : Host.Outcome State Fault Refusal :=
  loadZeroByte st rd (eaIndexed st rn rs) 1

/-- `ld.sb [Rn, Rs], Rd` (R140). -/
def execMov8snr (rn rs rd : Reg) (st : State) : Host.Outcome State Fault Refusal :=
  loadSignByte st rd (eaIndexed st rn rs) 1

/-- `st.w Rd, [Rn, Rs]` (R141). -/
def execMov16rn (rn rs rd : Reg) (st : State) : Host.Outcome State Fault Refusal :=
  storeWord st rd (eaIndexed st rn rs) 1

/-- `st.b Rd, [Rn, Rs]` (R142). -/
def execMov8rn (rn rs rd : Reg) (st : State) : Host.Outcome State Fault Refusal :=
  storeByte st rd (eaIndexed st rn rs) 1

end Sys2Proof.Machine
end

