-- ==== Sys2Proof/Machine/ZeroTwo.lean ====
section
/-! DEFINITION. Zero-operand and two-register instructions: spec 44_zero_two_operand.md, T12 and T13. -/

namespace Sys2Proof.Machine

/-- `ret`: the word at SP into pc, SP incremented by 2 (R210, D18, log 23). -/
def execRet (st : State) : Host.Outcome State Fault Refusal :=
  continueWith (popWord st) fun p => p.2.setPc p.1

/-- `reti`: the spec gives it no effect and names this fault (R211, R237, D20, log 25). -/
def execReti (_st : State) : Host.Outcome State Fault Refusal :=
  raise .interruptUnmodelled

/-- `dint`: I <- 0 (R212, D19, log 24). -/
def execDint (st : State) : Host.Outcome State Fault Refusal :=
  .next ((st.setSar { st.sar with i := false }).advance 1)

/-- `eint`: I <- 1 (R213, D19, log 24). -/
def execEint (st : State) : Host.Outcome State Fault Refusal :=
  .next ((st.setSar { st.sar with i := true }).advance 1)

/-- `mov Rs, Rd`: with s = d only pc changes (R215, D30, log 34); `nop` is its word 0x0000 (R112). -/
def execMovrr (rs rd : Reg) (st : State) : Host.Outcome State Fault Refusal :=
  .next ((if rs ≠ rd then st.setReg rd (st.reg rs) else st).advance 1)

/-- What `cmp Rs, Rd` subtracts from what (R216, `CMPRR_ORDER`, D16, log 21). -/
def compareRegs (order : CmprrOrder) (vs vd : Word) : AddResult :=
  match order with
  | .rdMinusRs => subC vd vs
  | .rsMinusRd => subC vs vd

/-- `cmp Rs, Rd`: by default the flags of Rd minus Rs, SR only (R216). -/
def execCmprr (rs rd : Reg) (st : State) : Host.Outcome State Fault Refusal :=
  .next (st.endCompare (compareRegs cfg.cmprrOrder (st.reg rs) (st.reg rd)))

/-- `zext Rs, Rd`: the low byte of Rs zero-extended (R217). -/
def execZext (rs rd : Reg) (st : State) : Host.Outcome State Fault Refusal :=
  .next (st.endMove rd (zext16 ((st.reg rs).extractLsb' 0 8)))

/-- `sext Rs, Rd`: the low byte of Rs sign-extended (R218). -/
def execSext (rs rd : Reg) (st : State) : Host.Outcome State Fault Refusal :=
  .next (st.endMove rd (sext16 ((st.reg rs).extractLsb' 0 8)))

/-- `bswap Rs, Rd`: the bytes of Rs exchanged (R219). -/
def execBswap (rs rd : Reg) (st : State) : Host.Outcome State Fault Refusal :=
  .next (st.endMove rd (swapBytes (st.reg rs)))

/-- `sextw Rs, Rd`: all ones if Rs is negative, or zero (R220). -/
def execSextw (rs rd : Reg) (st : State) : Host.Outcome State Fault Refusal :=
  .next (st.endMove rd (if (st.reg rs).getLsbD 15 then 0xFFFF#16 else 0x0000#16))

/-- Load Program Memory at Rs into Rd (R221, D1, D2). -/
def execMov16pr (rs rd : Reg) (st : State) : Host.Outcome State Fault Refusal :=
  continueWith (progRead st.prog (st.reg rs)) fun w => st.endMove rd w

end Sys2Proof.Machine
end

