-- ==== Sys2Proof/Machine/Dispatch.lean ====
section
/-! DEFINITION. The meaning of every instruction, one arm per constructor of Instr, in the order of
spec/opcode_table.json. -/

namespace Sys2Proof.Machine

def exec (i : Instr) (s : State) : Host.Outcome State Fault Refusal :=
  match i with
  | .jmprel a => Sys2Proof.Machine.execJmprel a s
  | .callrel a => Sys2Proof.Machine.execCallrel a s
  | .breq a => Sys2Proof.Machine.execBreq a s
  | .brne a => Sys2Proof.Machine.execBrne a s
  | .bruge a => Sys2Proof.Machine.execBruge a s
  | .brult a => Sys2Proof.Machine.execBrult a s
  | .brlt a => Sys2Proof.Machine.execBrlt a s
  | .brge a => Sys2Proof.Machine.execBrge a s
  | .brugt a => Sys2Proof.Machine.execBrugt a s
  | .brgt a => Sys2Proof.Machine.execBrgt a s
  | .seteq rd => Sys2Proof.Machine.execSeteq rd s
  | .setne rd => Sys2Proof.Machine.execSetne rd s
  | .setuge rd => Sys2Proof.Machine.execSetuge rd s
  | .setult rd => Sys2Proof.Machine.execSetult rd s
  | .setlt rd => Sys2Proof.Machine.execSetlt rd s
  | .setge rd => Sys2Proof.Machine.execSetge rd s
  | .setugt rd => Sys2Proof.Machine.execSetugt rd s
  | .setgt rd => Sys2Proof.Machine.execSetgt rd s
  | .seleq rn rs rd => Sys2Proof.Machine.execSeleq rn rs rd s
  | .selne rn rs rd => Sys2Proof.Machine.execSelne rn rs rd s
  | .seluge rn rs rd => Sys2Proof.Machine.execSeluge rn rs rd s
  | .selult rn rs rd => Sys2Proof.Machine.execSelult rn rs rd s
  | .sellt rn rs rd => Sys2Proof.Machine.execSellt rn rs rd s
  | .selge rn rs rd => Sys2Proof.Machine.execSelge rn rs rd s
  | .selugt rn rs rd => Sys2Proof.Machine.execSelugt rn rs rd s
  | .selgt rn rs rd => Sys2Proof.Machine.execSelgt rn rs rd s
  | .addrrr rn rs rd => Sys2Proof.Machine.execAddrrr rn rs rd s
  | .adcrrr rn rs rd => Sys2Proof.Machine.execAdcrrr rn rs rd s
  | .subrrr rn rs rd => Sys2Proof.Machine.execSubrrr rn rs rd s
  | .subcrrr rn rs rd => Sys2Proof.Machine.execSubcrrr rn rs rd s
  | .orrrr rn rs rd => Sys2Proof.Machine.execOrrrr rn rs rd s
  | .andrrr rn rs rd => Sys2Proof.Machine.execAndrrr rn rs rd s
  | .xorrrr rn rs rd => Sys2Proof.Machine.execXorrrr rn rs rd s
  | .reservedT5_0111 x => Sys2Proof.Machine.execReservedT5_0111 x s
  | .mov16nr rn rs rd => Sys2Proof.Machine.execMov16nr rn rs rd s
  | .mov8znr rn rs rd => Sys2Proof.Machine.execMov8znr rn rs rd s
  | .mov8snr rn rs rd => Sys2Proof.Machine.execMov8snr rn rs rd s
  | .mov16rn rn rs rd => Sys2Proof.Machine.execMov16rn rn rs rd s
  | .mov8rn rn rs rd => Sys2Proof.Machine.execMov8rn rn rs rd s
  | .andkr rd k => Sys2Proof.Machine.execAndkr rd k s
  | .orkr rd k => Sys2Proof.Machine.execOrkr rd k s
  | .reservedT6_1x x y => Sys2Proof.Machine.execReservedT6_1x x y s
  | .mov16mr rd rn k => Sys2Proof.Machine.execMov16mr rd rn k s
  | .movs8mr rd rn k => Sys2Proof.Machine.execMovs8mr rd rn k s
  | .mov16rm rd rn k => Sys2Proof.Machine.execMov16rm rd rn k s
  | .mov8rm rd rn k => Sys2Proof.Machine.execMov8rm rd rn k s
  | .movkr rd k => Sys2Proof.Machine.execMovkr rd k s
  | .cmpkr rd k => Sys2Proof.Machine.execCmpkr rd k s
  | .addkr rd k => Sys2Proof.Machine.execAddkr rd k s
  | .subkr rd k => Sys2Proof.Machine.execSubkr rd k s
  | .mov16qr rd k => Sys2Proof.Machine.execMov16qr rd k s
  | .movs8qr rd k => Sys2Proof.Machine.execMovs8qr rd k s
  | .mov16rq rd k => Sys2Proof.Machine.execMov16rq rd k s
  | .mov8rq rd k => Sys2Proof.Machine.execMov8rq rd k s
  | .addks k => Sys2Proof.Machine.execAddks k s
  | .subks k => Sys2Proof.Machine.execSubks k s
  | .push rd => Sys2Proof.Machine.execPush rd s
  | .pop rd => Sys2Proof.Machine.execPop rd s
  | .movsr rd => Sys2Proof.Machine.execMovsr rd s
  | .movrs rd => Sys2Proof.Machine.execMovrs rd s
  | .addrs rd => Sys2Proof.Machine.execAddrs rd s
  | .subrs rd => Sys2Proof.Machine.execSubrs rd s
  | .addsr rd => Sys2Proof.Machine.execAddsr rd s
  | .subsr rd => Sys2Proof.Machine.execSubsr rd s
  | .jmpreg rd => Sys2Proof.Machine.execJmpreg rd s
  | .callreg rd => Sys2Proof.Machine.execCallreg rd s
  | .reservedT11_010_01 x => Sys2Proof.Machine.execReservedT11_010_01 x s
  | .reservedT11_011_01 x => Sys2Proof.Machine.execReservedT11_011_01 x s
  | .reservedT11_100_01 x => Sys2Proof.Machine.execReservedT11_100_01 x s
  | .reservedT11_101_01 x => Sys2Proof.Machine.execReservedT11_101_01 x s
  | .reservedT11_110_01 x => Sys2Proof.Machine.execReservedT11_110_01 x s
  | .movSr rd => Sys2Proof.Machine.execMovSr rd s
  | .lsr rd => Sys2Proof.Machine.execLsr rd s
  | .lsl rd => Sys2Proof.Machine.execLsl rd s
  | .asr rd => Sys2Proof.Machine.execAsr rd s
  | .reservedT11_011_10 x => Sys2Proof.Machine.execReservedT11_011_10 x s
  | .reservedT11_100_10 x => Sys2Proof.Machine.execReservedT11_100_10 x s
  | .neg rd => Sys2Proof.Machine.execNeg rd s
  | .not rd => Sys2Proof.Machine.execNot rd s
  | .reservedT11_111_10 x => Sys2Proof.Machine.execReservedT11_111_10 x s
  | .movKr rd k => Sys2Proof.Machine.execMovKr rd k s
  | .mov16ar rd a => Sys2Proof.Machine.execMov16ar rd a s
  | .mov8zar rd a => Sys2Proof.Machine.execMov8zar rd a s
  | .mov8sar rd a => Sys2Proof.Machine.execMov8sar rd a s
  | .mov16ra rd a => Sys2Proof.Machine.execMov16ra rd a s
  | .mov8ra rd a => Sys2Proof.Machine.execMov8ra rd a s
  | .reservedT11_110_11 x => Sys2Proof.Machine.execReservedT11_110_11 x s
  | .reservedT11_111_11 x => Sys2Proof.Machine.execReservedT11_111_11 x s
  | .ret => Sys2Proof.Machine.execRet s
  | .reti => Sys2Proof.Machine.execReti s
  | .dint => Sys2Proof.Machine.execDint s
  | .eint => Sys2Proof.Machine.execEint s
  | .reservedT12_1xx x y => Sys2Proof.Machine.execReservedT12_1xx x y s
  | .movrr rs rd => Sys2Proof.Machine.execMovrr rs rd s
  | .cmprr rs rd => Sys2Proof.Machine.execCmprr rs rd s
  | .zext rs rd => Sys2Proof.Machine.execZext rs rd s
  | .sext rs rd => Sys2Proof.Machine.execSext rs rd s
  | .bswap rs rd => Sys2Proof.Machine.execBswap rs rd s
  | .sextw rs rd => Sys2Proof.Machine.execSextw rs rd s
  | .reservedT13_110 x => Sys2Proof.Machine.execReservedT13_110 x s
  | .mov16pr rs rd => Sys2Proof.Machine.execMov16pr rs rd s

end Sys2Proof.Machine
end

