-- ==== Sys2Proof/Machine/Fetch.lean ====
section
/-! DEFINITION. Fetching an instruction from program memory: spec 10_state.md R46 steps (1) and (2), with the faults
of 60_exceptions.md R231 in its order. -/

namespace Sys2Proof.Machine

/-- The words loaded at a program address, up to the longest instruction's two (R80). Reading ahead changes
nothing (R58): a one-word instruction needs no second word. -/
def wordsAt (m : ProgramMemory) (pc : Word) : List Word :=
  match progRead m pc with
  | .error _ => []
  | .ok w =>
    match progRead m (pcPlus cfg.pcUnit pc 1) with
    | .error _ => [w]
    | .ok w2 => [w, w2]

/-- The instruction at pc; UnmappedProgram at pc, or at the second word of a two-word form (R231). -/
def fetch (s : State) : Except Fault Instr :=
  match decode (wordsAt s.prog s.pc) with
  | .ok (i, _) => .ok i
  | .error .noFirstWord => .error (.unmappedProgram s.pc)
  | .error .noSecondWord => .error (.unmappedProgram (pcPlus cfg.pcUnit s.pc 1))

/-- Program memory with words loaded from a program address on (70_reset_and_hazards.md R261). -/
def loadProgram (m : ProgramMemory) (pc : Word) : List Word → ProgramMemory
  | [] => m
  | w :: rest => loadProgram (Cells.write m pc.toNat w) (pcPlus cfg.pcUnit pc 1) rest

end Sys2Proof.Machine
end

