-- ==== Sys2Proof/Machine/Step.lean ====
section
/-! DEFINITION. One step of the machine: spec 10_state.md R46, 60_exceptions.md R246. -/

namespace Sys2Proof.Machine

/-- Fetch, decode, execute (R46). The first test is the refusal of R231 and R234 for a model built with an interrupt
agent; with the agent absent it never holds. -/
def step (s : State) : Host.Outcome State Fault Refusal :=
  if interruptDue cfg.irqAgent s then raise .interruptUnmodelled
  else match fetch s with
    | .ok i => exec i s
    | .error f => raise f

/-- The state with an instruction's words loaded at pc, as a launch would load them (R261, log 7). -/
def State.withFetchWord (s : State) (nbits w : Nat) : State :=
  s.setProg (loadProgram s.prog s.pc (tableWords nbits w))

end Sys2Proof.Machine
end

