-- ==== Sys2Proof/Machine/Checked.lean ====
section
/-! DEFINITION. The checked machine: a state with the record of which registers, SP and flags have been written, and
the step that raises UninitialisedRead for the others, as spec 10_state.md R44 and 60_exceptions.md R231 say. Every
run from a launch (Safety.lean) is a run of this machine; `step` itself, the host's, gives such a read the value of
`State.reset` (log 1, 2, 3, 6). -/

namespace Sys2Proof.Machine

/-! What an instruction reads and writes. Data bytes are not named here: data memory itself says which are written
(R44), and the access primitives raise their fault. -/

/-- The flags that a condition reads (10_state.md R33, 40_control_cond.md R122). -/
def flagsOf : Cond → List Place
  | .eq | .ne => [.flag .z]
  | .uge | .ult => [.flag .c]
  | .lt | .ge => [.flag .s, .flag .v]
  | .ugt => [.flag .c, .flag .z]
  | .gt => [.flag .s, .flag .v, .flag .z]

/-- SR (R27). -/
def srPlaces : List Place := [.flag .v, .flag .s, .flag .c, .flag .z]

/-- SR and AR (R27). -/
def srArPlaces : List Place := srPlaces ++ [.flag .ac, .flag .az]

/-- The source operands, in the order in which an unwritten one is named (log 6): the registers, SP and flags that the
instruction's rule reads. A select reads both registers (R124); `mov Rs, Rd` with s = d reads none (R44, R215). -/
def operandsOf : Instr → List Place
  | .jmprel _ => []
  | .callrel _ => [.sp]
  | .breq _ | .seteq _ => flagsOf .eq
  | .brne _ | .setne _ => flagsOf .ne
  | .bruge _ | .setuge _ => flagsOf .uge
  | .brult _ | .setult _ => flagsOf .ult
  | .brlt _ | .setlt _ => flagsOf .lt
  | .brge _ | .setge _ => flagsOf .ge
  | .brugt _ | .setugt _ => flagsOf .ugt
  | .brgt _ | .setgt _ => flagsOf .gt
  | .seleq rn rs _ => flagsOf .eq ++ [.reg rn, .reg rs]
  | .selne rn rs _ => flagsOf .ne ++ [.reg rn, .reg rs]
  | .seluge rn rs _ => flagsOf .uge ++ [.reg rn, .reg rs]
  | .selult rn rs _ => flagsOf .ult ++ [.reg rn, .reg rs]
  | .sellt rn rs _ => flagsOf .lt ++ [.reg rn, .reg rs]
  | .selge rn rs _ => flagsOf .ge ++ [.reg rn, .reg rs]
  | .selugt rn rs _ => flagsOf .ugt ++ [.reg rn, .reg rs]
  | .selgt rn rs _ => flagsOf .gt ++ [.reg rn, .reg rs]
  | .addrrr rn rs _ | .subrrr rn rs _ | .orrrr rn rs _ | .andrrr rn rs _ | .xorrrr rn rs _ => [.reg rn, .reg rs]
  | .adcrrr rn rs _ | .subcrrr rn rs _ => [.reg rn, .reg rs, .flag .ac]
  | .mov16nr rn rs _ | .mov8znr rn rs _ | .mov8snr rn rs _ => [.reg rn, .reg rs]
  | .mov16rn rn rs rd | .mov8rn rn rs rd => [.reg rn, .reg rs, .reg rd]
  | .andkr rd _ | .orkr rd _ => [.reg rd]
  | .mov16mr _ rn _ | .movs8mr _ rn _ => [.reg rn]
  | .mov16rm rd rn _ | .mov8rm rd rn _ => [.reg rn, .reg rd]
  | .movkr _ _ => []
  | .cmpkr rd _ | .addkr rd _ | .subkr rd _ => [.reg rd]
  | .mov16qr _ _ | .movs8qr _ _ => [.sp]
  | .mov16rq rd _ | .mov8rq rd _ => [.sp, .reg rd]
  | .addks _ | .subks _ => [.sp]
  | .push rd => [.sp, .reg rd]
  | .pop _ | .movsr _ => [.sp]
  | .movrs rd => [.reg rd]
  | .addrs rd | .subrs rd | .addsr rd | .subsr rd => [.sp, .reg rd]
  | .jmpreg rd => [.reg rd]
  | .callreg rd => [.sp, .reg rd]
  | .movSr _ => .flag .i :: srArPlaces
  | .lsr rd | .lsl rd | .asr rd | .neg rd | .not rd => [.reg rd]
  | .movKr _ _ | .mov16ar _ _ | .mov8zar _ _ | .mov8sar _ _ => []
  | .mov16ra rd _ | .mov8ra rd _ => [.reg rd]
  | .ret => [.sp]
  | .reti | .dint | .eint => []
  | .movrr rs rd => if rs = rd then [] else [.reg rs]
  | .cmprr rs rd => [.reg rs, .reg rd]
  | .zext rs _ | .sext rs _ | .bswap rs _ | .sextw rs _ | .mov16pr rs _ => [.reg rs]
  | .reservedT5_0111 _ | .reservedT6_1x _ _ | .reservedT11_010_01 _ | .reservedT11_011_01 _
  | .reservedT11_100_01 _ | .reservedT11_101_01 _ | .reservedT11_110_01 _ | .reservedT11_011_10 _
  | .reservedT11_100_10 _ | .reservedT11_111_10 _ | .reservedT11_110_11 _ | .reservedT11_111_11 _
  | .reservedT12_1xx _ _ | .reservedT13_110 _ => []

/-- The flags that a logic instruction leaves with a value, an any-value bit being one (R38, R44). -/
def logicPlaces : LogicCV → List Place
  | .anyValue | .cleared => srPlaces
  | .unchanged => [.flag .s, .flag .z]

/-- The flags that a shift writes (43_t11_one_reg.md R191). -/
def shiftPlaces : ShiftFlags → List Place
  | .unchanged => []
  | .anyValue => srPlaces

/-- The registers, SP and flags that the instruction's rule writes (R22, R29). -/
def resultsOf : Instr → List Place
  | .jmprel _ => []
  | .callrel _ => [.sp]
  | .breq _ | .brne _ | .bruge _ | .brult _ | .brlt _ | .brge _ | .brugt _ | .brgt _ => []
  | .seteq rd | .setne rd | .setuge rd | .setult rd | .setlt rd | .setge rd | .setugt rd | .setgt rd => [.reg rd]
  | .seleq _ _ rd | .selne _ _ rd | .seluge _ _ rd | .selult _ _ rd | .sellt _ _ rd | .selge _ _ rd
  | .selugt _ _ rd | .selgt _ _ rd => [.reg rd]
  | .addrrr _ _ rd | .adcrrr _ _ rd | .subrrr _ _ rd | .subcrrr _ _ rd => .reg rd :: srArPlaces
  | .orrrr _ _ rd | .andrrr _ _ rd | .xorrrr _ _ rd => .reg rd :: logicPlaces cfg.logicCV
  | .mov16nr _ _ rd | .mov8znr _ _ rd | .mov8snr _ _ rd => [.reg rd]
  | .mov16rn _ _ _ | .mov8rn _ _ _ => []
  | .andkr rd _ | .orkr rd _ => .reg rd :: logicPlaces cfg.logicCV
  | .mov16mr rd _ _ | .movs8mr rd _ _ => [.reg rd]
  | .mov16rm _ _ _ | .mov8rm _ _ _ => []
  | .movkr rd _ => [.reg rd]
  | .cmpkr _ _ => srPlaces
  | .addkr rd _ | .subkr rd _ => .reg rd :: srArPlaces
  | .mov16qr rd _ | .movs8qr rd _ => [.reg rd]
  | .mov16rq _ _ | .mov8rq _ _ => []
  | .addks _ | .subks _ => .sp :: srArPlaces
  | .push _ => [.sp]
  | .pop rd => [.reg rd, .sp]
  | .movsr rd => [.reg rd]
  | .movrs _ => [.sp]
  | .addrs _ | .subrs _ => .sp :: srArPlaces
  | .addsr rd | .subsr rd => .reg rd :: srArPlaces
  | .jmpreg _ => []
  | .callreg _ => [.sp]
  | .movSr rd => [.reg rd]
  | .lsr rd | .lsl rd | .asr rd => .reg rd :: shiftPlaces cfg.shiftFlags
  | .neg rd => .reg rd :: srPlaces
  | .not rd => .reg rd :: logicPlaces cfg.logicCV
  | .movKr rd _ | .mov16ar rd _ | .mov8zar rd _ | .mov8sar rd _ => [.reg rd]
  | .mov16ra _ _ | .mov8ra _ _ => []
  | .ret => [.sp]
  | .reti => []
  | .dint | .eint => [.flag .i]
  | .movrr rs rd => if rs = rd then [] else [.reg rd]
  | .cmprr _ _ => srPlaces
  | .zext _ rd | .sext _ rd | .bswap _ rd | .sextw _ rd | .mov16pr _ rd => [.reg rd]
  | .reservedT5_0111 _ | .reservedT6_1x _ _ | .reservedT11_010_01 _ | .reservedT11_011_01 _
  | .reservedT11_100_01 _ | .reservedT11_101_01 _ | .reservedT11_110_01 _ | .reservedT11_011_10 _
  | .reservedT11_100_10 _ | .reservedT11_111_10 _ | .reservedT11_110_11 _ | .reservedT11_111_11 _
  | .reservedT12_1xx _ _ | .reservedT13_110 _ => []

/-! The checked machine. -/

/-- A state and the registers, SP and flags written since reset or launch, in no order, no repeats (R44). -/
structure Tracked where
  state : State
  written : List Place
deriving DecidableEq, Repr

/-- The first source operand of the instruction that nothing has written, if any. -/
def Tracked.unwrittenOperand (k : Tracked) (i : Instr) : Option Place :=
  (operandsOf i).find? fun p => decide (p ∉ k.written)

/-- Execution with the operand reads checked: UninitialisedRead before any other fault of the instruction's rule
(R231) and before any write (R232); otherwise what `exec` answers, its results then being written. -/
def checkedExec (i : Instr) (k : Tracked) : Host.Outcome Tracked Fault Refusal :=
  match k.unwrittenOperand i with
  | some p => .fault (.uninitialisedRead p)
  | none =>
    match exec i k.state with
    | .next t => .next { state := t, written := resultsOf i ∪ k.written }
    | .fault f => .fault f
    | .refused r => .refused r

/-- One step of the checked machine (R46, R231, R246): the faults of fetch and decode come first. A reserved block and
`reti` have no operands, so that their own fault is reported. -/
def checkedStep (k : Tracked) : Host.Outcome Tracked Fault Refusal :=
  if interruptDue cfg.irqAgent k.state then .fault .interruptUnmodelled
  else match fetch k.state with
    | .ok i => checkedExec i k
    | .error f => .fault f

/-- The checked machine right after reset: only pc and I have values (R43, R260). -/
def Tracked.reset : Tracked := { state := State.reset, written := [.flag .i] }

end Sys2Proof.Machine
end

