-- ==== Sys2Proof/Safety.lean ====
section
/-! DEFINITION. What a run is and how it ends: the launch (spec 70_reset_and_hazards.md R261), `END_PC` and the
outcomes of a run (R266, R267), and the invariant of states that claims use. -/

namespace Sys2Proof.Machine

/-- Both memories are in canonical form. -/
abbrev State.wf (s : State) : Prop := Memory.wf s.data ∧ ProgramMemory.wf s.prog

/-- What a launcher supplies (R261): the program image, the optional data image, optional presets of registers, SP, pc
and flags, each register and each flag on its own, and `END_PC` (R266, D26). Of two presets of one place the later
counts. That pc may be preset is read from the start states of 95_test_vectors.md (DEDUCED, log 30). -/
structure Launch where
  program : List (Word × Word)
  dataImage : List (Word × Byte)
  presetRegs : List (Reg × Word)
  presetSp : Option Word
  presetPc : Option Word
  presetFlags : List (Flag × Bool)
  endPc : Word
deriving DecidableEq, Repr

/-- The launch state: reset, with the images loaded and the presets made (R261). -/
def Launch.start (l : Launch) : State :=
  { State.reset with
    prog := l.program.foldl (fun m p => Cells.write m p.1.toNat p.2) []
    data := l.dataImage.foldl (fun m p => Cells.write m p.1.toNat p.2) []
    regs := l.presetRegs.foldl (fun f p => f.set p.1 p.2) State.reset.regs
    sp := l.presetSp.getD State.reset.sp
    pc := l.presetPc.getD State.reset.pc
    sar := l.presetFlags.foldl (fun f p => f.set p.1 p.2) State.reset.sar }

/-- What a launch has written: what the reset state has, I, and the registers, SP and flags preset, no other (R261,
R44). -/
def Launch.written (l : Launch) : List Place :=
  (l.presetRegs.map (fun p => .reg p.1) ++ (if l.presetSp.isSome then [.sp] else []) ++
    l.presetFlags.map (fun p => .flag p.1)) ∪ Tracked.reset.written

/-- The launch state with the record of what is written in it: where a run starts. -/
def Launch.tracked (l : Launch) : Tracked := { state := l.start, written := l.written }

/-- How a bounded run ends (R267). The spec's outcomes are the first three; a refusal cannot occur, since every
instruction has a meaning. -/
inductive RunResult
  | finished (k : Tracked)
  | faulted (f : Fault) (k : Tracked)     -- `k` is the state before the faulting instruction (R232)
  | outOfFuel (k : Tracked)
  | refused (r : Refusal) (k : Tracked)
deriving DecidableEq, Repr

/-- At most `fuel` steps of the checked machine: a read of what nothing has written ends the run, it never gives a
value (60_exceptions.md R247). A run is finished in the first state whose pc is `END_PC`, before the instruction there
is fetched (R266). -/
def runTo (endPc : Word) (fuel : Nat) (k : Tracked) : RunResult :=
  if k.state.pc = endPc then .finished k
  else match fuel with
    | 0 => .outOfFuel k
    | n + 1 =>
      match checkedStep k with
      | .next j => runTo endPc n j
      | .fault f => .faulted f k
      | .refused r => .refused r k

/-- A safe run from a launch: it finishes within some number of steps (R267: only that carries a result). -/
def Launch.finishes (l : Launch) (k : Tracked) : Prop :=
  ∃ fuel, runTo l.endPc fuel l.tracked = .finished k

end Sys2Proof.Machine
end

