-- ==== Sys2Proof/Certificates/Slice0/Obligations.lean ====
section
/-! DEFINITION. The statements for the provers, from the numbered rules of spec/. Each docstring names the rules or
the spec's decisions it formalises. Next states are written out field by field, so that every statement of a result
is also the instruction's frame. Statements that rest on a default the spec chose (a decision D<n>) say so.

The first definitions are the statements' own vocabulary; they do not call the meanings they are used about. -/

open Sys2Proof Sys2Proof.Machine

namespace Sys2Proof.Claims

/-- The word `w`, alone, is the encoding of `i`. -/
def EncodedAs (w : Word) (i : Instr) : Prop := ∀ rest, decode (w :: rest) = .ok (i, rest)

/-- The word `w` with the next word is the encoding of `i` of that word. -/
def EncodedWithNext (w : Word) (i : Word → Instr) : Prop :=
  ∀ w2 rest, decode (w :: w2 :: rest) = .ok (i w2, rest)

/-- The data byte at an address; `none` if nothing has written it. -/
def dataByte (s : State) (a : Word) : Option Byte := Cells.read s.data a.toNat

/-- The program word at an address; `none` if none is loaded. -/
def programWord (s : State) (a : Word) : Option Word := Cells.read s.prog a.toNat

/-- The table of 10_state.md R33. -/
def CondTrue (f : Sar) : Cond → Prop
  | .eq => f.z = true
  | .ne => f.z = false
  | .uge => f.c = true
  | .ult => f.c = false
  | .lt => f.s ≠ f.v
  | .ge => f.s = f.v
  | .ugt => f.c = true ∧ f.z = false
  | .gt => f.s = f.v ∧ f.z = false

/-- The encodings of the conditions, the first column of R33's table. -/
def condBits : Cond → BitVec 3
  | .eq => 0b000#3
  | .ne => 0b001#3
  | .uge => 0b010#3
  | .ult => 0b011#3
  | .lt => 0b100#3
  | .ge => 0b101#3
  | .ugt => 0b110#3
  | .gt => 0b111#3

/-- `br%cc`. -/
def branchOn : Cond → BitVec 9 → Instr
  | .eq => .breq
  | .ne => .brne
  | .uge => .bruge
  | .ult => .brult
  | .lt => .brlt
  | .ge => .brge
  | .ugt => .brugt
  | .gt => .brgt

/-- `set%cc`. -/
def setOn : Cond → Reg → Instr
  | .eq => .seteq
  | .ne => .setne
  | .uge => .setuge
  | .ult => .setult
  | .lt => .setlt
  | .ge => .setge
  | .ugt => .setugt
  | .gt => .setgt

/-- `sel%cc`. -/
def selectOn : Cond → Reg → Reg → Reg → Instr
  | .eq => .seleq
  | .ne => .selne
  | .uge => .seluge
  | .ult => .selult
  | .lt => .sellt
  | .ge => .selge
  | .ugt => .selugt
  | .gt => .selgt

/-- What a comparison of `a` with `b` makes each condition mean (R33's descriptions). -/
def Compares (a b : Word) : Cond → Prop
  | .eq => a = b
  | .ne => a ≠ b
  | .uge => b.toNat ≤ a.toNat
  | .ult => a.toNat < b.toNat
  | .lt => a.toInt < b.toInt
  | .ge => b.toInt ≤ a.toInt
  | .ugt => b.toNat < a.toNat
  | .gt => b.toInt < a.toInt

/-- The exact value does not fit a signed 16-bit result. -/
def overflows (x : Int) : Bool := !decide (-32768 ≤ x ∧ x ≤ 32767)

/-- SAR after an instruction that updates SR: V from the exact signed value, S the sign and Z the zero of the 16-bit
result, C the carry. -/
def srAfter (f : Sar) (exact : Int) (carry : Bool) (r : Word) : Sar :=
  { f with v := overflows exact, s := decide (r.toInt < 0), c := carry, z := decide (r = 0) }

/-- SAR after an instruction that updates SR and AR: AC and AZ as C and Z. -/
def srArAfter (f : Sar) (exact : Int) (carry : Bool) (r : Word) : Sar :=
  { srAfter f exact carry r with ac := carry, az := decide (r = 0) }

/-- SAR after an addition of `a`, `b` and a carry. -/
def sumSar (f : Sar) (a b : Word) (cin : Bool) : Sar :=
  srArAfter f (a.toInt + b.toInt + cin.toNat) (decide (65536 ≤ a.toNat + b.toNat + cin.toNat))
    (BitVec.ofNat 16 (a.toNat + b.toNat + cin.toNat))

/-- SAR after a subtraction `a - b - borrow`; the carry is 1 when there is no borrow out. -/
def differenceSar (f : Sar) (a b : Word) (borrow : Bool) : Sar :=
  srArAfter f (a.toInt - b.toInt - borrow.toNat) (decide (b.toNat + borrow.toNat ≤ a.toNat))
    (BitVec.ofInt 16 ((a.toNat : Int) - b.toNat - borrow.toNat))

/-- SAR after a comparison of `a` with `b`: SR as after `a - b`, AR unchanged. -/
def compareSar (f : Sar) (a b : Word) : Sar :=
  srAfter f (a.toInt - b.toInt) (decide (b.toNat ≤ a.toNat)) (BitVec.ofInt 16 ((a.toNat : Int) - b.toNat))

/-- `i` is a logic instruction of result `r` into `rd`: Z and S from `r`, C and V any values, all else kept. Only the
count of draws of the model's own moves with them. -/
def LogicResult (i : Instr) (s : State) (rd : Reg) (r : Word) : Prop :=
  ∃ (c v : Bool) (n : Nat), exec i s = .next { s with
    regs := s.regs.set rd r
    sar := { s.sar with c := c, v := v, z := decide (r = 0), s := decide (r.toInt < 0) }
    pc := s.pc + 1
    draws := n }

/-- `i` loads the word at `ea`, low byte first, into `rd` and goes on `n` words later. -/
def LoadsWord (i : Instr) (s : State) (rd : Reg) (ea n : Word) : Prop :=
  ∀ lo hi, ea.getLsbD 0 = false → dataByte s ea = some lo → dataByte s (ea + 1) = some hi →
    exec i s = .next { s with regs := s.regs.set rd (hi ++ lo), pc := s.pc + n }

/-- `i` loads the byte at `ea`, widened, into `rd` and goes on `n` words later. -/
def LoadsByte (i : Instr) (s : State) (rd : Reg) (ea n : Word) (widen : Byte → Word) : Prop :=
  ∀ b, dataByte s ea = some b →
    exec i s = .next { s with regs := s.regs.set rd (widen b), pc := s.pc + n }

/-- The bytes of memory `m` are those of `s`, but that the word `v` lies at `ea`, low byte first. -/
def HoldsWord (m : Memory) (s : State) (ea v : Word) : Prop :=
  ∀ a : Nat, Cells.read m a =
    if a = ea.toNat then some (v.extractLsb' 0 8)
    else if a = (ea + 1).toNat then some (v.extractLsb' 8 8)
    else Cells.read s.data a

/-- `i` stores the word `v` at `ea` and goes on `n` words later; no register and no flag changes. -/
def StoresWord (i : Instr) (s : State) (v ea n : Word) : Prop :=
  ea.getLsbD 0 = false →
    ∃ m, exec i s = .next { s with data := m, pc := s.pc + n } ∧ HoldsWord m s ea v

/-- `i` stores the low byte of `v` at `ea` and goes on `n` words later; nothing else changes. -/
def StoresByte (i : Instr) (s : State) (v ea n : Word) : Prop :=
  ∃ m, exec i s = .next { s with data := m, pc := s.pc + n } ∧
    ∀ a : Nat, Cells.read m a = if a = ea.toNat then some (v.extractLsb' 0 8) else Cells.read s.data a

/-- The word access of `i` at an odd address is the fault that names the address. -/
def OddFaults (i : Instr) (s : State) (ea : Word) : Prop :=
  ea.getLsbD 0 = true → exec i s = .fault (.misalignedWord ea)

/-- The word load of `i` from an even address faults at the lowest byte that nothing has written. -/
def UnwrittenWordFaults (i : Instr) (s : State) (ea : Word) : Prop :=
  ea.getLsbD 0 = false →
    (dataByte s ea = none → exec i s = .fault (.uninitialisedRead (.byte ea))) ∧
    ((dataByte s ea).isSome → dataByte s (ea + 1) = none → exec i s = .fault (.uninitialisedRead (.byte (ea + 1))))

/-- The byte load of `i` faults at a byte that nothing has written. -/
def UnwrittenByteFaults (i : Instr) (s : State) (ea : Word) : Prop :=
  dataByte s ea = none → exec i s = .fault (.uninitialisedRead (.byte ea))

/-- The instructions that write SR (R29). -/
def writesSR : Instr → Bool
  | .addrrr .. | .adcrrr .. | .subrrr .. | .subcrrr .. | .addkr .. | .subkr .. | .addks .. | .subks ..
  | .addrs .. | .subrs .. | .addsr .. | .subsr .. | .orrrr .. | .andrrr .. | .xorrrr .. | .andkr .. | .orkr ..
  | .cmpkr .. | .cmprr .. | .neg .. | .not .. => true
  | _ => false

/-- The instructions that write AR (R29). -/
def writesAR : Instr → Bool
  | .addrrr .. | .adcrrr .. | .subrrr .. | .subcrrr .. | .addkr .. | .subkr .. | .addks .. | .subks ..
  | .addrs .. | .subrs .. | .addsr .. | .subsr .. => true
  | _ => false

/-- The instructions that write I (R29). -/
def writesI : Instr → Bool
  | .eint | .dint => true
  | _ => false

/-- The instructions that write SP (R22). -/
def writesSp : Instr → Bool
  | .push .. | .pop .. | .movrs .. | .addrs .. | .subrs .. | .addks .. | .subks .. | .callrel .. | .callreg ..
  | .ret => true
  | _ => false

/-- The instructions that write data memory (R59). -/
def writesData : Instr → Bool
  | .mov16rn .. | .mov16rm .. | .mov16rq .. | .mov16ra .. | .mov8rn .. | .mov8rm .. | .mov8rq .. | .mov8ra ..
  | .push .. | .callrel .. | .callreg .. => true
  | _ => false

/-- The general register an instruction writes, if any. -/
def writesReg : Instr → Option Reg
  | .seteq rd | .setne rd | .setuge rd | .setult rd | .setlt rd | .setge rd | .setugt rd | .setgt rd => some rd
  | .seleq _ _ rd | .selne _ _ rd | .seluge _ _ rd | .selult _ _ rd | .sellt _ _ rd | .selge _ _ rd
  | .selugt _ _ rd | .selgt _ _ rd => some rd
  | .addrrr _ _ rd | .adcrrr _ _ rd | .subrrr _ _ rd | .subcrrr _ _ rd | .orrrr _ _ rd | .andrrr _ _ rd
  | .xorrrr _ _ rd | .mov16nr _ _ rd | .mov8znr _ _ rd | .mov8snr _ _ rd => some rd
  | .andkr rd _ | .orkr rd _ | .mov16mr rd _ _ | .movs8mr rd _ _ | .movkr rd _ | .addkr rd _ | .subkr rd _
  | .mov16qr rd _ | .movs8qr rd _ => some rd
  | .pop rd | .movsr rd | .addsr rd | .subsr rd | .movSr rd | .lsr rd | .lsl rd | .asr rd | .neg rd | .not rd
  | .movKr rd _ | .mov16ar rd _ | .mov8zar rd _ | .mov8sar rd _ => some rd
  | .movrr _ rd | .zext _ rd | .sext _ rd | .bswap _ rd | .sextw _ rd | .mov16pr _ rd => some rd
  | _ => none

/-- The instructions that read or write a word of data memory (R231, row MisalignedWord). -/
def accessesWord : Instr → Bool
  | .mov16nr .. | .mov16mr .. | .mov16qr .. | .mov16ar .. | .mov16rn .. | .mov16rm .. | .mov16rq .. | .mov16ra ..
  | .push .. | .pop .. | .callrel .. | .callreg .. | .ret => true
  | _ => false

/-- The instructions that read data memory (R44). -/
def readsData : Instr → Bool
  | .mov16nr .. | .mov16mr .. | .mov16qr .. | .mov16ar .. | .mov8znr .. | .mov8snr .. | .movs8mr .. | .movs8qr ..
  | .mov8zar .. | .mov8sar .. | .pop .. | .ret => true
  | _ => false

/-- The condition of a conditional branch, set or select (T2 to T4). -/
def conditionOf : Instr → Option Cond
  | .breq _ | .seteq _ | .seleq .. => some .eq
  | .brne _ | .setne _ | .selne .. => some .ne
  | .bruge _ | .setuge _ | .seluge .. => some .uge
  | .brult _ | .setult _ | .selult .. => some .ult
  | .brlt _ | .setlt _ | .sellt .. => some .lt
  | .brge _ | .setge _ | .selge .. => some .ge
  | .brugt _ | .setugt _ | .selugt .. => some .ugt
  | .brgt _ | .setgt _ | .selgt .. => some .gt
  | _ => none

/-- The flags in each line of R33's table. -/
def conditionReads : Cond → Flag → Bool
  | .eq, .z | .ne, .z | .uge, .c | .ult, .c | .ugt, .c | .ugt, .z => true
  | .lt, .s | .lt, .v | .ge, .s | .ge, .v | .gt, .s | .gt, .v | .gt, .z => true
  | _, _ => false

/-- The flags an instruction reads: AC in `addc` and `subc`, all seven in `mov SR, Rd`, those of a condition. -/
def readsFlag (i : Instr) (f : Flag) : Bool :=
  match i with
  | .adcrrr .. | .subcrrr .. => f = .ac
  | .movSr _ => true
  | _ => match conditionOf i with
    | some cc => conditionReads cc f
    | none => false

/-- The instructions that read SP, the list of 70_reset_and_hazards.md R262. -/
def readsSp : Instr → Bool
  | .push _ | .pop _ | .callrel _ | .callreg _ | .ret | .movsr _ | .addks _ | .subks _ | .addrs _ | .subrs _
  | .addsr _ | .subsr _ | .mov16qr .. | .movs8qr .. | .mov16rq .. | .mov8rq .. => true
  | _ => false

/-- The general registers an instruction reads; none for `mov Rs, Rd` with s = d (R44). -/
def readsReg : Instr → List Reg
  | .seleq rn rs _ | .selne rn rs _ | .seluge rn rs _ | .selult rn rs _ | .sellt rn rs _ | .selge rn rs _
  | .selugt rn rs _ | .selgt rn rs _ => [rn, rs]
  | .addrrr rn rs _ | .adcrrr rn rs _ | .subrrr rn rs _ | .subcrrr rn rs _ | .orrrr rn rs _ | .andrrr rn rs _
  | .xorrrr rn rs _ | .mov16nr rn rs _ | .mov8znr rn rs _ | .mov8snr rn rs _ => [rn, rs]
  | .mov16rn rn rs rd | .mov8rn rn rs rd => [rn, rs, rd]
  | .mov16mr _ rn _ | .movs8mr _ rn _ => [rn]
  | .mov16rm rd rn _ | .mov8rm rd rn _ => [rd, rn]
  | .andkr rd _ | .orkr rd _ | .cmpkr rd _ | .addkr rd _ | .subkr rd _ | .mov16rq rd _ | .mov8rq rd _
  | .mov16ra rd _ | .mov8ra rd _ => [rd]
  | .push rd | .movrs rd | .addrs rd | .subrs rd | .addsr rd | .subsr rd | .jmpreg rd | .callreg rd | .lsr rd
  | .lsl rd | .asr rd | .neg rd | .not rd => [rd]
  | .movrr rs rd => if rs = rd then [] else [rs]
  | .cmprr rs rd => [rs, rd]
  | .zext rs _ | .sext rs _ | .bswap rs _ | .sextw rs _ | .mov16pr rs _ => [rs]
  | _ => []

/-- The instruction reads the register, SP or flag as an operand. -/
def readsPlace (i : Instr) : Place → Prop
  | .reg r => r ∈ readsReg i
  | .sp => readsSp i = true
  | .flag f => readsFlag i f = true
  | .byte _ => False

/-- The instruction writes the register, SP or flag; `mov Rs, Rd` with s = d writes none. -/
def writesPlace (i : Instr) : Place → Prop
  | .reg r => writesReg i = some r ∧ i ≠ .movrr r r
  | .sp => writesSp i = true
  | .flag .i => writesI i = true
  | .flag .ac | .flag .az => writesAR i = true
  | .flag .v | .flag .s | .flag .c | .flag .z => writesSR i = true
  | .byte _ => False

/-- Two states hold the same in a register, SP, a flag or a data byte. -/
def SameAt (s t : State) : Place → Prop
  | .reg r => s.reg r = t.reg r
  | .sp => s.sp = t.sp
  | .flag .i => s.sar.i = t.sar.i
  | .flag .v => s.sar.v = t.sar.v
  | .flag .s => s.sar.s = t.sar.s
  | .flag .c => s.sar.c = t.sar.c
  | .flag .z => s.sar.z = t.sar.z
  | .flag .ac => s.sar.ac = t.sar.ac
  | .flag .az => s.sar.az = t.sar.az
  | .byte a => dataByte s a = dataByte t a

/-- The same places are written in both; those hold the same, and so do pc, both memories and the count of draws.
What is not written may differ. -/
def SameWhereWritten (k j : Tracked) : Prop :=
  k.written = j.written ∧ k.state.pc = j.state.pc ∧ k.state.data = j.state.data ∧ k.state.prog = j.state.prog ∧
  k.state.draws = j.state.draws ∧ ∀ p ∈ k.written, SameAt k.state j.state p

/-- Two runs ended in the same way, in states that are the same where written. -/
def SameResult : RunResult → RunResult → Prop
  | .finished k, .finished j => SameWhereWritten k j
  | .faulted f k, .faulted g j => f = g ∧ SameWhereWritten k j
  | .outOfFuel k, .outOfFuel j => SameWhereWritten k j
  | _, _ => False

/-- The masks and matches of R101's table. -/
def reservedMasks : List (Word × Word) :=
  [(0xFE00#16, 0x2E00#16), (0xF180#16, 0xC180#16),
   (0xFFE0#16, 0x0520#16), (0xFFE0#16, 0x0720#16), (0xFFE0#16, 0x0920#16), (0xFFE0#16, 0x0B20#16),
   (0xFFE0#16, 0x0D20#16),
   (0xFFE0#16, 0x0740#16), (0xFFE0#16, 0x0940#16), (0xFFE0#16, 0x0F40#16),
   (0xFFE0#16, 0x0D60#16), (0xFFE0#16, 0x0F60#16),
   (0xF980#16, 0x0880#16), (0xFF80#16, 0x0C00#16)]

/-- The word lies in a reserved block of R101. -/
def isReserved (w : Word) : Bool := reservedMasks.any fun p => w &&& p.1 == p.2

/-- The bits marked x of R100 in a word that is no reserved encoding: T3 bits 6:3, T10 bits 10:9, T11 bits 4:3,
T12 bits 6:0, T13 bit 6, and bit 9 of the T5 encodings `100x`, `110x`, `111x`. -/
def unusedBits (w : Word) : Word :=
  if isReserved w then 0x0000#16
  else if w &&& 0xF180#16 = 0x0180#16 then 0x0078#16
  else if w &&& 0xF100#16 = 0xC000#16 then 0x0600#16
  else if w &&& 0xF180#16 = 0x0100#16 then 0x0018#16
  else if w &&& 0xF180#16 = 0x0080#16 then 0x007F#16
  else if w &&& 0xF180#16 = 0x0000#16 then 0x0040#16
  else if w &&& 0xFC00#16 = 0x3000#16 ∨ w &&& 0xFC00#16 = 0x3800#16 ∨ w &&& 0xFC00#16 = 0x3C00#16 then 0x0200#16
  else 0x0000#16

/-- The condition of R107 on a first word: the instruction has two words. -/
def takesSecondWord (w : Word) : Bool :=
  decide (w &&& 0xF1E0#16 = 0x0160#16 ∧ (w.extractLsb' 9 3).toNat ≤ 5)

end Sys2Proof.Claims

open Sys2Proof.Claims

/-! Encoding. -/

/-- Decoding the words of any instruction, reserved blocks included, gives it back and leaves the words after it:
no operand bit is dropped at any value (spec 30_encoding.md, sections 2 and 3). -/
def Obligations.DecodeEncodeRoundTrip : Prop :=
  ∀ (i : Instr) (rest : List Word), decode (encode i ++ rest) = .ok (i, rest)

/-- Every first word, with a word after it, decodes, and encoding what it decodes to gives the word back with
exactly the unused bits of R100 cleared (spec's decision D21), and the second word where one was taken. -/
def Obligations.EncodeOfDecodedWordClearsUnusedBits : Prop :=
  ∀ w w2 : Word, ∃ (i : Instr) (rest : List Word), decode [w, w2] = .ok (i, rest) ∧
    encode i ++ rest = [w &&& ~~~(unusedBits w), w2]

/-- A first word decodes to a reserved block exactly when it matches a mask of R101's table (spec's decision D21). -/
def Obligations.ReservedBlocksAreThoseOfTheTable : Prop :=
  ∀ (w w2 : Word) (i : Instr) (rest : List Word), decode [w, w2] = .ok (i, rest) →
    (i.wellFormed = false ↔ isReserved w = true)

/-- The length is settled by the first word (R107): two words exactly for T11 op2 = 11 with op 000 to 101. -/
def Obligations.LengthIsSettledByTheFirstWord : Prop :=
  ∀ (w w2 : Word) (i : Instr) (rest : List Word), decode [w, w2] = .ok (i, rest) →
    (takesSecondWord w = true → rest = [] ∧ i.words = 2) ∧
    (takesSecondWord w = false → rest = [w2] ∧ i.words = 1)

/-- R97: the word 0x0000 is `mov r0, r0`, T13 with op = 000, Rs = 0, Rd = 0. -/
def Obligations.NopWordIsMovR0R0 : Prop :=
  EncodedAs 0x0000#16 (.movrr .r0 .r0)

/-- Words written out bit by bit, one or more of each pattern T1 to T13 (spec 30_encoding.md, section 2). The
`st.b` word has its unused bit 9 set, which decodes by the spec's decision D21 (log 26). -/
def Obligations.WrittenOutWordsDecode : Prop :=
  EncodedAs 0b1110000000000101#16 (.jmprel 5#12) ∧
  EncodedAs 0b1111111111111101#16 (.callrel 0xFFD#12) ∧
  EncodedAs 0b1101001111111100#16 (.brne 0x1FC#9) ∧
  EncodedAs 0b0000011110000101#16 (.setult .r5) ∧
  EncodedAs 0b0001101001010011#16 (.selge .r1 .r2 .r3) ∧
  EncodedAs 0b0010011100101110#16 (.subcrrr .r4 .r5 .r6) ∧
  EncodedAs 0b0011111001010011#16 (.mov8rn .r1 .r2 .r3) ∧
  EncodedAs 0b1100111101000001#16 (.orkr .r7 1#6) ∧
  EncodedAs 0b1000010001010100#16 (.mov16mr .r2 .r1 20#6) ∧
  EncodedAs 0b0101011100001010#16 (.cmpkr .r3 0x0A#8) ∧
  EncodedAs 0b0111100011111111#16 (.mov8rq .r4 0xFF#8) ∧
  EncodedAs 0b1100100000001000#16 (.subks 8#8) ∧
  EncodedAs 0b0000111100100000#16 (.movSr .r0) ∧
  EncodedWithNext 0b0000001101100101#16 (.mov16ar .r5) ∧
  EncodedAs 0b0000000010000000#16 .ret ∧
  EncodedAs 0b0000111000001010#16 (.mov16pr .r1 .r2)

/-! The step. -/

/-- A step runs the decoded instruction (spec 10_state.md, section 8): where the word at pc, or the words at pc and
pc + 1, are the encoding of `i`, the step is `exec i`, whatever else is loaded. Nothing is added around it: `exec`
moves pc itself, and no interrupt is taken (`IrqAgent` absent). -/
def Obligations.StepRunsTheDecodedInstruction : Prop :=
  ∀ (s : State) (i : Instr) (w w2 : Word), programWord s s.pc = some w →
    (decode [w] = .ok (i, []) → step s = exec i s) ∧
    (programWord s (s.pc + 1) = some w2 → decode [w, w2] = .ok (i, []) → step s = exec i s)

/-- A fetch where no word is loaded is the fault that names the address, at pc and at the second word of a two-word
form (spec 60_exceptions.md, section 1, decision D28). -/
def Obligations.FetchOfUnloadedWordFaults : Prop :=
  ∀ s : State,
    (programWord s s.pc = none → step s = .fault (.unmappedProgram s.pc)) ∧
    ∀ w, programWord s s.pc = some w → takesSecondWord w = true → programWord s (s.pc + 1) = none →
      step s = .fault (.unmappedProgram (s.pc + 1))

/-- Every state has a next state or one of the listed faults: no step refuses (spec 60_exceptions.md, section 6). -/
def Obligations.StepNeverRefuses : Prop :=
  ∀ (s : State) (r : Refusal), step s ≠ .refused r

/-! Invariants and whole-machine rules. -/

/-- Every step keeps both memories in canonical form: addresses strictly rising and below 65536. -/
def Obligations.StepKeepsMemoriesCanonical : Prop :=
  ∀ s t : State, s.wf → step s = .next t → t.wf

/-- The memories of the reset state are in canonical form. -/
def Obligations.ResetMemoriesAreCanonical : Prop := State.reset.wf

/-- Reset: pc 0x0000 and I 0 are the spec's decision D23; zero registers, SP and other flags are THE MODEL'S CHOICE
(log 1, 2, 3), as the spec gives none; no byte is written and no word loaded. -/
def Obligations.ResetLeavesTheChosenState : Prop :=
  State.reset.pc = 0x0000#16 ∧ State.reset.sar.i = false ∧
  (∀ r : Reg, State.reset.reg r = 0x0000#16) ∧ State.reset.sp = 0x0000#16 ∧
  State.reset.sar = { i := false, v := false, s := false, c := false, z := false, ac := false, az := false } ∧
  ∀ a : Word, dataByte State.reset a = none ∧ programWord State.reset a = none

/-- A launch (spec 70_reset_and_hazards.md, section 1) starts with both memories in canonical form, whatever the
order of its images. -/
def Obligations.LaunchMemoriesAreCanonical : Prop := ∀ l : Launch, l.start.wf

/-- Program memory is constant during a run (spec 20_memory.md, section 6; decision D1). -/
def Obligations.StepKeepsProgramMemory : Prop :=
  ∀ s t : State, step s = .next t → t.prog = s.prog

/-- The flags an instruction does not name are kept (spec 10_state.md, section 4, decision D15, and `SHIFT_FLAGS`
unchanged): SR by the instructions that do not write it, AR and I likewise. -/
def Obligations.FlagsAreWrittenAsListed : Prop :=
  ∀ (i : Instr) (s t : State), exec i s = .next t →
    (writesSR i = false → t.sar.v = s.sar.v ∧ t.sar.s = s.sar.s ∧ t.sar.c = s.sar.c ∧ t.sar.z = s.sar.z) ∧
    (writesAR i = false → t.sar.ac = s.sar.ac ∧ t.sar.az = s.sar.az) ∧
    (writesI i = false → t.sar.i = s.sar.i)

/-- SP changes only in the instructions that the spec lists as writing it (spec 10_state.md, section 2; the stack use
of call and ret is decision D18). -/
def Obligations.StackPointerIsWrittenAsListed : Prop :=
  ∀ (i : Instr) (s t : State), exec i s = .next t → writesSp i = false → t.sp = s.sp

/-- Data memory changes only in stores, `push` and the two calls (spec 20_memory.md, section 2; decision D18). -/
def Obligations.DataMemoryIsWrittenAsListed : Prop :=
  ∀ (i : Instr) (s t : State), exec i s = .next t → writesData i = false → t.data = s.data

/-- A general register changes only as the destination of the instruction (spec 10_state.md, sections 1 and 8). -/
def Obligations.RegistersAreWrittenAsListed : Prop :=
  ∀ (i : Instr) (s t : State), exec i s = .next t →
    ∀ r : Reg, writesReg i ≠ some r → t.reg r = s.reg r

/-- A data byte once written stays written (spec 10_state.md, section 8): no step makes a load that could be done
fault for want of a value. -/
def Obligations.WrittenBytesStayWritten : Prop :=
  ∀ (s t : State) (a : Word), step s = .next t → (dataByte s a).isSome → (dataByte t a).isSome

/-- Each fault of `exec` comes only from the instructions named for it here (spec 60_exceptions.md, section 1, decision
D28). ReservedEncoding names the block's own word (D21, log 26); MisalignedWord names some odd address (D6, log 12) and
UninitialisedRead some data address that nothing has written, which of them being said in OddWordAccessesFault and
UnwrittenBytesFault; UnmappedProgram names the address in Rs, where no word is loaded (D1, log 31; fetch is in
FetchOfUnloadedWordFaults); InterruptUnmodelled is `reti` (D20, log 25); UnmappedData cannot occur under the default map
(D24, log 28). That `exec` raises UninitialisedRead for data bytes only is THE MODEL'S CHOICE (log 6, DESIGN CHOICE); the
checked step raises it for a never written register, SP or flag too, as the spec says (UnwrittenOperandsFault). -/
def Obligations.FaultsAreRaisedAsListed : Prop :=
  ∀ (i : Instr) (s : State) (f : Fault), exec i s = .fault f →
    match f with
    | .reservedEncoding w => i.wellFormed = false ∧ encode i = [w]
    | .misalignedWord a => accessesWord i = true ∧ a.getLsbD 0 = true
    | .unmappedData _ => False
    | .unmappedProgram a => (∃ rs rd, i = .mov16pr rs rd ∧ a = s.reg rs) ∧ programWord s a = none
    | .interruptUnmodelled => i = .reti
    | .uninitialisedRead (.byte a) => readsData i = true ∧ dataByte s a = none
    | .uninitialisedRead _ => False

/-! Conditions and control transfers (T1 to T4). -/

/-- The truth of each condition code, that it reads V, S, C, Z only (spec 10_state.md, section 5), that the conditional
branches, sets and selects use it (spec 40_control_cond.md, T2 to T4; the branch target is the model's own function,
decision D4, stated in ConditionalBranchGoesWhereItsConditionSays), and its encoding in each of them (spec
30_encoding.md, section 2); a set decodes at every value of its unused bits 6:3, which is the spec's decision D21 (log
26). -/
def Obligations.ConditionCodesFollowTheTable : Prop :=
  (∀ (cc : Cond) (f : Sar), condHolds cc f = true ↔ CondTrue f cc) ∧
  (∀ (cc : Cond) (f g : Sar), f.v = g.v → f.s = g.s → f.c = g.c → f.z = g.z → condHolds cc f = condHolds cc g) ∧
  (∀ (cc : Cond) (a : BitVec 9) (s : State),
    (condHolds cc s.sar = true → exec (branchOn cc a) s = .next (s.setPc (relTarget s a))) ∧
    (condHolds cc s.sar = false → exec (branchOn cc a) s = .next (s.advance 1))) ∧
  (∀ (cc : Cond) (rd : Reg) (s : State),
    exec (setOn cc rd) s = .next (s.endMove rd (if condHolds cc s.sar then 1 else 0))) ∧
  (∀ (cc : Cond) (rn rs rd : Reg) (s : State),
    exec (selectOn cc rn rs rd) s = .next (s.endMove rd (if condHolds cc s.sar then s.reg rn else s.reg rs))) ∧
  (∀ (cc : Cond) (a : BitVec 9), EncodedAs
    (0b1101000000000000#16 ||| place (condBits cc) 9 ||| place a 0) (branchOn cc a)) ∧
  (∀ (cc : Cond) (x : BitVec 4) (rd : Reg), EncodedAs
    (0b0000000110000000#16 ||| place (condBits cc) 9 ||| place x 3 ||| place rd.bits 0) (setOn cc rd)) ∧
  (∀ (cc : Cond) (rn rs rd : Reg), EncodedAs
    (0b0001000000000000#16 ||| place (condBits cc) 9 ||| place rn.bits 6 ||| place rs.bits 3 ||| place rd.bits 0)
    (selectOn cc rn rs rd))

/-- `jmp Label`: pc + 1 + the signed offset, modulo 2^16 (spec 40_control_cond.md, T1; decision D4: `REL_BASE` next
instruction, `PC_UNIT` word). -/
def Obligations.RelativeJumpTarget : Prop :=
  ∀ (a : BitVec 12) (s : State),
    exec (.jmprel a) s = .next { s with pc := BitVec.ofInt 16 ((s.pc.toNat : Int) + 1 + a.toInt) }

/-- Both calls with SP even: the address of the next instruction stored as a word at SP - 2, SP moved there, pc at the
target (spec 40_control_cond.md T1, 43_t11_one_reg.md op2 = 01; decisions D4, D18; byte order D5). -/
def Obligations.CallsPushTheReturnAddress : Prop :=
  ∀ (a : BitVec 12) (rd : Reg) (s : State), s.sp.getLsbD 0 = false →
    (∃ m, exec (.callrel a) s = .next { s with
        data := m, sp := s.sp - 2, pc := BitVec.ofInt 16 ((s.pc.toNat : Int) + 1 + a.toInt) } ∧
      HoldsWord m s (s.sp - 2) (s.pc + 1)) ∧
    (∃ m, exec (.callreg rd) s = .next { s with data := m, sp := s.sp - 2, pc := s.reg rd } ∧
      HoldsWord m s (s.sp - 2) (s.pc + 1))

/-- The eight conditional branches: the relative target if the condition is true, otherwise the next instruction; no
flag or register changes (spec 40_control_cond.md, T2; decision D4). -/
def Obligations.ConditionalBranchGoesWhereItsConditionSays : Prop :=
  ∀ (cc : Cond) (a : BitVec 9) (s : State),
    (CondTrue s.sar cc →
      exec (branchOn cc a) s = .next { s with pc := BitVec.ofInt 16 ((s.pc.toNat : Int) + 1 + a.toInt) }) ∧
    (¬ CondTrue s.sar cc → exec (branchOn cc a) s = .next { s with pc := s.pc + 1 })

/-- The eight conditional sets: all of Rd is 1 or 0 (spec 40_control_cond.md, T3). -/
def Obligations.ConditionalSetWritesOneOrZero : Prop :=
  ∀ (cc : Cond) (rd : Reg) (s : State),
    (CondTrue s.sar cc → exec (setOn cc rd) s = .next { s with regs := s.regs.set rd 1, pc := s.pc + 1 }) ∧
    (¬ CondTrue s.sar cc → exec (setOn cc rd) s = .next { s with regs := s.regs.set rd 0, pc := s.pc + 1 })

/-- The eight conditional selects, and that exchanging Rn and Rs selects on the opposite condition (spec
40_control_cond.md, T4). -/
def Obligations.ConditionalSelectCopiesOneOperand : Prop :=
  ∀ (cc : Cond) (rn rs rd : Reg) (s : State),
    (CondTrue s.sar cc →
      exec (selectOn cc rn rs rd) s = .next { s with regs := s.regs.set rd (s.reg rn), pc := s.pc + 1 } ∧
      exec (selectOn cc rs rn rd) s = .next { s with regs := s.regs.set rd (s.reg rs), pc := s.pc + 1 }) ∧
    (¬ CondTrue s.sar cc →
      exec (selectOn cc rn rs rd) s = .next { s with regs := s.regs.set rd (s.reg rs), pc := s.pc + 1 } ∧
      exec (selectOn cc rs rn rd) s = .next { s with regs := s.regs.set rd (s.reg rn), pc := s.pc + 1 })

/-- After `cmp Rs, Rd`, `cmp Rd, K` or `sub Rn, Rs, Rd` every condition means what its description says of the two
values, signed and unsigned (spec 10_state.md, sections 5 and 6; decisions D10, D16). -/
def Obligations.ConditionsAfterCompareOrderTheOperands : Prop :=
  ∀ (s : State) (cc : Cond) (rn rs rd : Reg) (k : BitVec 8),
    (∃ t, exec (.cmprr rs rd) s = .next t ∧
      (condHolds cc t.sar = true ↔ Compares (s.reg rd) (s.reg rs) cc)) ∧
    (∃ t, exec (.cmpkr rd k) s = .next t ∧
      (condHolds cc t.sar = true ↔ Compares (s.reg rd) (k.signExtend 16) cc)) ∧
    (∃ t, exec (.subrrr rn rs rd) s = .next t ∧
      (condHolds cc t.sar = true ↔ Compares (s.reg rn) (s.reg rs) cc))

/-! Arithmetic. -/

/-- `add` and `addc` of three registers: the sum modulo 2^16 and both flag sets; the carry in is AC (spec
41_alu3_ldst_reg.md; decisions D10, D11, D12). -/
def Obligations.RegisterAdditionSetsBothFlagSets : Prop :=
  ∀ (rn rs rd : Reg) (s : State),
    exec (.addrrr rn rs rd) s = .next { s with
      regs := s.regs.set rd (BitVec.ofNat 16 ((s.reg rn).toNat + (s.reg rs).toNat))
      sar := sumSar s.sar (s.reg rn) (s.reg rs) false
      pc := s.pc + 1 } ∧
    exec (.adcrrr rn rs rd) s = .next { s with
      regs := s.regs.set rd (BitVec.ofNat 16 ((s.reg rn).toNat + (s.reg rs).toNat + s.sar.ac.toNat))
      sar := sumSar s.sar (s.reg rn) (s.reg rs) s.sar.ac
      pc := s.pc + 1 }

/-- `sub` and `subc` of three registers: the difference modulo 2^16 and both flag sets, carry 1 meaning no borrow; the
borrow in is the complement of AC (spec 41_alu3_ldst_reg.md; decisions D10, D11, D12). -/
def Obligations.RegisterSubtractionSetsBothFlagSets : Prop :=
  ∀ (rn rs rd : Reg) (s : State),
    exec (.subrrr rn rs rd) s = .next { s with
      regs := s.regs.set rd (BitVec.ofInt 16 (((s.reg rn).toNat : Int) - (s.reg rs).toNat))
      sar := differenceSar s.sar (s.reg rn) (s.reg rs) false
      pc := s.pc + 1 } ∧
    exec (.subcrrr rn rs rd) s = .next { s with
      regs := s.regs.set rd (BitVec.ofInt 16 (((s.reg rn).toNat : Int) - (s.reg rs).toNat - (!s.sar.ac).toNat))
      sar := differenceSar s.sar (s.reg rn) (s.reg rs) (!s.sar.ac)
      pc := s.pc + 1 }

/-- `add Rd, K, Rd` and `sub Rd, K, Rd` with K zero-extended (spec 42_imm_offset_sp.md, T8; decisions D10, D11). -/
def Obligations.ImmediateAdditionAndSubtraction : Prop :=
  ∀ (rd : Reg) (k : BitVec 8) (s : State),
    exec (.addkr rd k) s = .next { s with
      regs := s.regs.set rd (BitVec.ofNat 16 ((s.reg rd).toNat + k.toNat))
      sar := sumSar s.sar (s.reg rd) (BitVec.ofNat 16 k.toNat) false
      pc := s.pc + 1 } ∧
    exec (.subkr rd k) s = .next { s with
      regs := s.regs.set rd (BitVec.ofInt 16 (((s.reg rd).toNat : Int) - k.toNat))
      sar := differenceSar s.sar (s.reg rd) (BitVec.ofNat 16 k.toNat) false
      pc := s.pc + 1 }

/-- `add SP, K, SP` and `sub SP, K, SP` with K zero-extended: SP and both flag sets, no general register (spec
42_imm_offset_sp.md, T10; decisions D10, D11). -/
def Obligations.OffsetToStackPointer : Prop :=
  ∀ (k : BitVec 8) (s : State),
    exec (.addks k) s = .next { s with
      sp := BitVec.ofNat 16 (s.sp.toNat + k.toNat)
      sar := sumSar s.sar s.sp (BitVec.ofNat 16 k.toNat) false
      pc := s.pc + 1 } ∧
    exec (.subks k) s = .next { s with
      sp := BitVec.ofInt 16 ((s.sp.toNat : Int) - k.toNat)
      sar := differenceSar s.sar s.sp (BitVec.ofNat 16 k.toNat) false
      pc := s.pc + 1 }

/-- SP plus or minus Rd into SP, and into Rd: the order is SP minus Rd (spec 43_t11_one_reg.md, op2 = 00; decisions
D10, D11). -/
def Obligations.StackPointerAndRegisterArithmetic : Prop :=
  ∀ (rd : Reg) (s : State),
    exec (.addrs rd) s = .next { s with
      sp := BitVec.ofNat 16 (s.sp.toNat + (s.reg rd).toNat)
      sar := sumSar s.sar s.sp (s.reg rd) false
      pc := s.pc + 1 } ∧
    exec (.subrs rd) s = .next { s with
      sp := BitVec.ofInt 16 ((s.sp.toNat : Int) - (s.reg rd).toNat)
      sar := differenceSar s.sar s.sp (s.reg rd) false
      pc := s.pc + 1 } ∧
    exec (.addsr rd) s = .next { s with
      regs := s.regs.set rd (BitVec.ofNat 16 (s.sp.toNat + (s.reg rd).toNat))
      sar := sumSar s.sar s.sp (s.reg rd) false
      pc := s.pc + 1 } ∧
    exec (.subsr rd) s = .next { s with
      regs := s.regs.set rd (BitVec.ofInt 16 ((s.sp.toNat : Int) - (s.reg rd).toNat))
      sar := differenceSar s.sar s.sp (s.reg rd) false
      pc := s.pc + 1 }

/-- `cmp Rd, K` with K sign-extended and `cmp Rs, Rd`: SR as after Rd minus the other, AC, AZ and every register kept
(spec 42_imm_offset_sp.md T8, 44_zero_two_operand.md T13; decisions D10, D16: `CMPRR_ORDER` Rd - Rs). -/
def Obligations.CompareSetsCompareFlagsOnly : Prop :=
  ∀ (rs rd : Reg) (k : BitVec 8) (s : State),
    exec (.cmpkr rd k) s = .next { s with
      sar := compareSar s.sar (s.reg rd) (BitVec.ofInt 16 k.toInt), pc := s.pc + 1 } ∧
    exec (.cmprr rs rd) s = .next { s with
      sar := compareSar s.sar (s.reg rd) (s.reg rs), pc := s.pc + 1 }

/-- `neg Rd`: 0 - Rd, SR as after that subtraction, AC and AZ kept (spec 43_t11_one_reg.md, op2 = 10; decision D14). -/
def Obligations.NegateIsZeroMinusTheRegister : Prop :=
  ∀ (rd : Reg) (s : State), exec (.neg rd) s = .next { s with
    regs := s.regs.set rd (BitVec.ofInt 16 (-(s.reg rd).toInt))
    sar := { s.sar with
      v := decide (s.reg rd = 0x8000#16), s := decide ((BitVec.ofInt 16 (-(s.reg rd).toInt)).toInt < 0),
      c := decide (s.reg rd = 0), z := decide (s.reg rd = 0) }
    pc := s.pc + 1 }

/-- A 32-bit addition: `add` of the low words, then `addc` of the high words, with a compare between the two, gives
the 32-bit sum (spec 41_alu3_ldst_reg.md, `addc`; decision D11, log 17). The low result must not overwrite a high
operand, nor the high result the low one. -/
def Obligations.AddThenAddcIsTheDoubleWordSum : Prop :=
  ∀ (an bn ah bh dl dh r : Reg) (k : BitVec 8) (s : State), dl ≠ ah → dl ≠ bh → dh ≠ dl →
    ∃ t u v, exec (.addrrr an bn dl) s = .next t ∧ exec (.cmpkr r k) t = .next u ∧
      exec (.adcrrr ah bh dh) u = .next v ∧
      (v.reg dh ++ v.reg dl).toNat =
        ((s.reg ah ++ s.reg an).toNat + (s.reg bh ++ s.reg bn).toNat) % 2 ^ 32

/-! Logic and shifts. -/

/-- The six logic instructions: the bitwise result, Z and S from it, C and V any values (`LOGIC_CV`, decision D13, log
18), AC and AZ kept (spec 41_alu3_ldst_reg.md, 42_imm_offset_sp.md T6, 43_t11_one_reg.md `not`). -/
def Obligations.LogicLeavesCarryAndOverflowFree : Prop :=
  ∀ (rn rs rd : Reg) (k : BitVec 6) (s : State),
    LogicResult (.orrrr rn rs rd) s rd (s.reg rn ||| s.reg rs) ∧
    LogicResult (.andrrr rn rs rd) s rd (s.reg rn &&& s.reg rs) ∧
    LogicResult (.xorrrr rn rs rd) s rd (s.reg rn ^^^ s.reg rs) ∧
    LogicResult (.andkr rd k) s rd (s.reg rd &&& BitVec.ofNat 16 k.toNat) ∧
    LogicResult (.orkr rd k) s rd (s.reg rd ||| BitVec.ofNat 16 k.toNat) ∧
    LogicResult (.not rd) s rd (s.reg rd ^^^ 0xFFFF#16)

/-- The shifts by one: logical right is the half, left the double modulo 2^16, arithmetic right the signed half
rounded down; no flag changes (spec 43_t11_one_reg.md, op2 = 10; decision D15: `SHIFT_FLAGS` unchanged). -/
def Obligations.ShiftsHalveAndDouble : Prop :=
  ∀ (rd : Reg) (s : State),
    exec (.lsr rd) s = .next { s with
      regs := s.regs.set rd (BitVec.ofNat 16 ((s.reg rd).toNat / 2)), pc := s.pc + 1 } ∧
    exec (.lsl rd) s = .next { s with
      regs := s.regs.set rd (BitVec.ofNat 16 (2 * (s.reg rd).toNat)), pc := s.pc + 1 } ∧
    exec (.asr rd) s = .next { s with
      regs := s.regs.set rd (BitVec.ofInt 16 ((s.reg rd).toInt / 2)), pc := s.pc + 1 }

/-! Loads and stores. -/

/-- The four word loads from an even address whose bytes are written (spec 41, 42, 43; `ENDIAN` little D5, `disp6`
field - 16 D8, no scaling D9, addresses modulo 2^16 D7). -/
def Obligations.WordLoadsReadLittleEndian : Prop :=
  ∀ (rn rs rd : Reg) (k6 : BitVec 6) (k8 : BitVec 8) (a : Word) (s : State),
    LoadsWord (.mov16nr rn rs rd) s rd (s.reg rn + s.reg rs) 1 ∧
    LoadsWord (.mov16mr rd rn k6) s rd (BitVec.ofInt 16 (((s.reg rn).toNat : Int) + (k6.toNat - 16))) 1 ∧
    LoadsWord (.mov16qr rd k8) s rd (s.sp + BitVec.ofNat 16 k8.toNat) 1 ∧
    LoadsWord (.mov16ar rd a) s rd a 2

/-- The six byte loads: any address, zero- or sign-extended (spec 41, 42, 43; `disp6` D8, no scaling D9, addresses
modulo 2^16 D7). -/
def Obligations.ByteLoadsWiden : Prop :=
  ∀ (rn rs rd : Reg) (k6 : BitVec 6) (k8 : BitVec 8) (a : Word) (s : State),
    LoadsByte (.mov8znr rn rs rd) s rd (s.reg rn + s.reg rs) 1 (fun b => BitVec.ofNat 16 b.toNat) ∧
    LoadsByte (.mov8snr rn rs rd) s rd (s.reg rn + s.reg rs) 1 (fun b => BitVec.ofInt 16 b.toInt) ∧
    LoadsByte (.movs8mr rd rn k6) s rd (BitVec.ofInt 16 (((s.reg rn).toNat : Int) + (k6.toNat - 16))) 1
      (fun b => BitVec.ofInt 16 b.toInt) ∧
    LoadsByte (.movs8qr rd k8) s rd (s.sp + BitVec.ofNat 16 k8.toNat) 1 (fun b => BitVec.ofInt 16 b.toInt) ∧
    LoadsByte (.mov8zar rd a) s rd a 2 (fun b => BitVec.ofNat 16 b.toNat) ∧
    LoadsByte (.mov8sar rd a) s rd a 2 (fun b => BitVec.ofInt 16 b.toInt)

/-- The four word stores to an even address: the two bytes, low byte first, and nothing else (spec 41, 42, 43;
`ENDIAN` little D5, `disp6` D8, no scaling D9, addresses modulo 2^16 D7). -/
def Obligations.WordStoresWriteTwoBytes : Prop :=
  ∀ (rn rs rd : Reg) (k6 : BitVec 6) (k8 : BitVec 8) (a : Word) (s : State),
    StoresWord (.mov16rn rn rs rd) s (s.reg rd) (s.reg rn + s.reg rs) 1 ∧
    StoresWord (.mov16rm rd rn k6) s (s.reg rd) (BitVec.ofInt 16 (((s.reg rn).toNat : Int) + (k6.toNat - 16))) 1 ∧
    StoresWord (.mov16rq rd k8) s (s.reg rd) (s.sp + BitVec.ofNat 16 k8.toNat) 1 ∧
    StoresWord (.mov16ra rd a) s (s.reg rd) a 2

/-- The four byte stores: the low byte of Rd at any address, and nothing else (spec 41, 42, 43; `disp6` D8, no
scaling D9, addresses modulo 2^16 D7). -/
def Obligations.ByteStoresWriteOneByte : Prop :=
  ∀ (rn rs rd : Reg) (k6 : BitVec 6) (k8 : BitVec 8) (a : Word) (s : State),
    StoresByte (.mov8rn rn rs rd) s (s.reg rd) (s.reg rn + s.reg rs) 1 ∧
    StoresByte (.mov8rm rd rn k6) s (s.reg rd) (BitVec.ofInt 16 (((s.reg rn).toNat : Int) + (k6.toNat - 16))) 1 ∧
    StoresByte (.mov8rq rd k8) s (s.reg rd) (s.sp + BitVec.ofNat 16 k8.toNat) 1 ∧
    StoresByte (.mov8ra rd a) s (s.reg rd) a 2

/-- Every word access at an odd address faults, in every addressing mode, `push`, `pop`, both calls and `ret` with SP
odd included (spec 20_memory.md, section 3, decision D6, log 12). The addresses rest on the spec's decisions D7 (modulo
2^16, log 13), D8 (`disp6` field - 16, log 14) and D9 (no scaling, log 15); those of `push` and `pop` on D17 (log 22),
those of the calls and `ret` on D18 (log 23). -/
def Obligations.OddWordAccessesFault : Prop :=
  ∀ (rn rs rd : Reg) (k6 : BitVec 6) (k8 : BitVec 8) (a : Word) (o : BitVec 12) (s : State),
    OddFaults (.mov16nr rn rs rd) s (s.reg rn + s.reg rs) ∧
    OddFaults (.mov16rn rn rs rd) s (s.reg rn + s.reg rs) ∧
    OddFaults (.mov16mr rd rn k6) s (BitVec.ofInt 16 (((s.reg rn).toNat : Int) + (k6.toNat - 16))) ∧
    OddFaults (.mov16rm rd rn k6) s (BitVec.ofInt 16 (((s.reg rn).toNat : Int) + (k6.toNat - 16))) ∧
    OddFaults (.mov16qr rd k8) s (s.sp + BitVec.ofNat 16 k8.toNat) ∧
    OddFaults (.mov16rq rd k8) s (s.sp + BitVec.ofNat 16 k8.toNat) ∧
    OddFaults (.mov16ar rd a) s a ∧
    OddFaults (.mov16ra rd a) s a ∧
    OddFaults (.push rd) s (s.sp - 2) ∧
    OddFaults (.pop rd) s s.sp ∧
    OddFaults (.callrel o) s (s.sp - 2) ∧
    OddFaults (.callreg rd) s (s.sp - 2) ∧
    OddFaults .ret s s.sp

/-- A load, `pop` or `ret` of a byte that nothing has written faults at that byte, the lower one first (spec
10_state.md, section 8, decisions D23 and D28, log 5; the order of the two bytes is the model's reading, log 32). The
addresses rest on the spec's decisions D7 (modulo 2^16, log 13), D8 (`disp6` field - 16, log 14) and D9 (no scaling, log
15); that of `pop` on D17 (log 22), that of `ret` on D18 (log 23). -/
def Obligations.UnwrittenBytesFault : Prop :=
  ∀ (rn rs rd : Reg) (k6 : BitVec 6) (k8 : BitVec 8) (a : Word) (s : State),
    UnwrittenWordFaults (.mov16nr rn rs rd) s (s.reg rn + s.reg rs) ∧
    UnwrittenWordFaults (.mov16mr rd rn k6) s (BitVec.ofInt 16 (((s.reg rn).toNat : Int) + (k6.toNat - 16))) ∧
    UnwrittenWordFaults (.mov16qr rd k8) s (s.sp + BitVec.ofNat 16 k8.toNat) ∧
    UnwrittenWordFaults (.mov16ar rd a) s a ∧
    UnwrittenWordFaults (.pop rd) s s.sp ∧
    UnwrittenWordFaults .ret s s.sp ∧
    UnwrittenByteFaults (.mov8znr rn rs rd) s (s.reg rn + s.reg rs) ∧
    UnwrittenByteFaults (.mov8snr rn rs rd) s (s.reg rn + s.reg rs) ∧
    UnwrittenByteFaults (.movs8mr rd rn k6) s (BitVec.ofInt 16 (((s.reg rn).toNat : Int) + (k6.toNat - 16))) ∧
    UnwrittenByteFaults (.movs8qr rd k8) s (s.sp + BitVec.ofNat 16 k8.toNat) ∧
    UnwrittenByteFaults (.mov8zar rd a) s a ∧
    UnwrittenByteFaults (.mov8sar rd a) s a

/-! The stack. -/

/-- `push Rd` with SP even: Rd stored as a word at SP - 2, SP moved there (spec 43_t11_one_reg.md, op2 = 00; decision
D17, byte order D5). -/
def Obligations.PushStoresAtTheNewStackPointer : Prop :=
  ∀ (rd : Reg) (s : State), s.sp.getLsbD 0 = false →
    ∃ m, exec (.push rd) s = .next { s with data := m, sp := s.sp - 2, pc := s.pc + 1 } ∧
      HoldsWord m s (s.sp - 2) (s.reg rd)

/-- `pop Rd` with SP even and the word at SP written: Rd loaded from SP, SP moved up by 2 (spec 43_t11_one_reg.md,
op2 = 00; decision D17, byte order D5). -/
def Obligations.PopLoadsAtTheOldStackPointer : Prop :=
  ∀ (rd : Reg) (s : State) (lo hi : Byte), s.sp.getLsbD 0 = false →
    dataByte s s.sp = some lo → dataByte s (s.sp + 1) = some hi →
      exec (.pop rd) s = .next { s with regs := s.regs.set rd (hi ++ lo), sp := s.sp + 2, pc := s.pc + 1 }

/-- `push Ra; pop Rb` copies Ra to Rb, restores SP and changes no flag and no other register (spec 43_t11_one_reg.md,
`pop`; decision D17). -/
def Obligations.PushThenPopCopies : Prop :=
  ∀ (ra rb : Reg) (s : State), s.sp.getLsbD 0 = false →
    ∃ t u, exec (.push ra) s = .next t ∧ exec (.pop rb) t = .next u ∧
      u = { s with regs := s.regs.set rb (s.reg ra), data := t.data, pc := s.pc + 2 }

/-- `ret` with SP even and the word at SP written: pc loaded from SP, SP moved up by 2 (spec 44_zero_two_operand.md,
T12; decision D18, byte order D5). -/
def Obligations.ReturnLoadsTheProgramCounter : Prop :=
  ∀ (s : State) (lo hi : Byte), s.sp.getLsbD 0 = false →
    dataByte s s.sp = some lo → dataByte s (s.sp + 1) = some hi →
      exec .ret s = .next { s with sp := s.sp + 2, pc := hi ++ lo }

/-- A call followed at once by `ret` comes back to the instruction after the call with SP, flags and registers as
they were (spec 40_control_cond.md T1, 43_t11_one_reg.md op2 = 01, 44_zero_two_operand.md T12; decision D18). -/
def Obligations.CallThenReturnComesBack : Prop :=
  ∀ (a : BitVec 12) (rd : Reg) (s : State), s.sp.getLsbD 0 = false →
    (∃ t, exec (.callrel a) s = .next t ∧ exec .ret t = .next { s with data := t.data, pc := s.pc + 1 }) ∧
    (∃ t, exec (.callreg rd) s = .next t ∧ exec .ret t = .next { s with data := t.data, pc := s.pc + 1 })

/-! Moves, extensions, program memory, status register, interrupts. -/

/-- R156: encoding, and Rd is the sign-extended immediate; nothing else changes. -/
def Obligations.MoveImmediateSignExtends : Prop :=
  ∀ (rd : Reg) (k : BitVec 8) (s : State),
    EncodedAs (0b0100000100000000#16 ||| place rd.bits 9 ||| place k 0) (.movkr rd k) ∧
    exec (.movkr rd k) s = .next { s with
      regs := s.regs.set rd (BitVec.ofInt 16 k.toInt), pc := s.pc + 1 }

/-- `mov.w K, Rd` (spec 43_t11_one_reg.md, op2 = 11): Rd is the next word and pc moves by 2; a step where the second
word is not loaded faults there (decision D28, log 32). The encoding, with the unused bits 4:3 at any value, is the
spec's decision D21 (log 26). -/
def Obligations.MoveWideImmediateTakesTheNextWord : Prop :=
  ∀ (rd : Reg) (x : BitVec 2) (s : State),
    EncodedWithNext (0b0000000101100000#16 ||| place x 3 ||| place rd.bits 0) (.movKr rd) ∧
    (∀ k : Word, exec (.movKr rd k) s = .next { s with regs := s.regs.set rd k, pc := s.pc + 2 }) ∧
    (programWord s s.pc = some (0b0000000101100000#16 ||| place x 3 ||| place rd.bits 0) →
      programWord s (s.pc + 1) = none → step s = .fault (.unmappedProgram (s.pc + 1)))

/-- `mov SP, Rd` and `mov Rd, SP` (spec 43_t11_one_reg.md, op2 = 00): SP copied to Rd and Rd to SP, odd values too; no
flag changes. The encodings, with the unused bits 4:3 at any value, are the spec's decision D21 (log 26). -/
def Obligations.StackPointerMovesCopy : Prop :=
  ∀ (rd : Reg) (x : BitVec 2) (s : State),
    EncodedAs (0b0000010100000000#16 ||| place x 3 ||| place rd.bits 0) (.movsr rd) ∧
    exec (.movsr rd) s = .next { s with regs := s.regs.set rd s.sp, pc := s.pc + 1 } ∧
    EncodedAs (0b0000011100000000#16 ||| place x 3 ||| place rd.bits 0) (.movrs rd) ∧
    exec (.movrs rd) s = .next { s with sp := s.reg rd, pc := s.pc + 1 }

/-- `jmp Rd` (spec 43_t11_one_reg.md, op2 = 01): pc is all 16 bits of Rd, under `PC_UNIT` word (decision D2, log 8); the
jump does not fault, the next fetch does if no word is loaded there (decision D28, log 32). The encoding, with the unused
bits 4:3 at any value, is the spec's decision D21 (log 26). -/
def Obligations.IndirectJumpTakesTheWholeRegister : Prop :=
  ∀ (rd : Reg) (x : BitVec 2) (s : State),
    EncodedAs (0b0000000100100000#16 ||| place x 3 ||| place rd.bits 0) (.jmpreg rd) ∧
    exec (.jmpreg rd) s = .next { s with pc := s.reg rd } ∧
    (programWord s (s.reg rd) = none →
      step { s with pc := s.reg rd } = .fault (.unmappedProgram (s.reg rd)))

/-- `zext`, `sext`, `bswap`, `sextw` (spec 44_zero_two_operand.md, T13): the low byte zero-extended, sign-extended, the
bytes exchanged (twice gives the value back), and the sign spread over the word, which is the upper word of the 32-bit
sign extension; no flag changes. The encodings, with the unused bit 6 at any value, are the spec's decision D21 (log
26). -/
def Obligations.ExtensionsAndByteSwap : Prop :=
  ∀ (rs rd : Reg) (x : BitVec 1) (s : State),
    EncodedAs (0b0000010000000000#16 ||| place x 6 ||| place rs.bits 3 ||| place rd.bits 0) (.zext rs rd) ∧
    exec (.zext rs rd) s = .next { s with
      regs := s.regs.set rd (BitVec.ofNat 16 ((s.reg rs).toNat % 256)), pc := s.pc + 1 } ∧
    EncodedAs (0b0000011000000000#16 ||| place x 6 ||| place rs.bits 3 ||| place rd.bits 0) (.sext rs rd) ∧
    exec (.sext rs rd) s = .next { s with
      regs := s.regs.set rd (BitVec.ofInt 16 (((s.reg rs).toNat : Int).bmod 256)), pc := s.pc + 1 } ∧
    EncodedAs (0b0000100000000000#16 ||| place x 6 ||| place rs.bits 3 ||| place rd.bits 0) (.bswap rs rd) ∧
    exec (.bswap rs rd) s = .next { s with
      regs := s.regs.set rd (BitVec.ofNat 16 ((s.reg rs).toNat % 256 * 256 + (s.reg rs).toNat / 256)),
      pc := s.pc + 1 } ∧
    (∃ t, exec (.bswap rs rd) s = .next t ∧
      exec (.bswap rd rd) t = .next { s with regs := s.regs.set rd (s.reg rs), pc := s.pc + 2 }) ∧
    EncodedAs (0b0000101000000000#16 ||| place x 6 ||| place rs.bits 3 ||| place rd.bits 0) (.sextw rs rd) ∧
    exec (.sextw rs rd) s = .next { s with
      regs := s.regs.set rd (if (s.reg rs).toInt < 0 then 0xFFFF else 0x0000), pc := s.pc + 1 } ∧
    (if (s.reg rs).toInt < 0 then 0xFFFF#16 else 0x0000#16) = ((s.reg rs).signExtend 32).extractLsb' 16 16

/-- `mov Rs, Rd`, the same register included: with s = d only pc changes (spec 44_zero_two_operand.md, T13; decision
D30). -/
def Obligations.RegisterMoveCopies : Prop :=
  ∀ (rs rd : Reg) (s : State),
    exec (.movrr rs rd) s = .next { s with regs := s.regs.set rd (s.reg rs), pc := s.pc + 1 } ∧
    exec (.movrr rs rs) s = .next { s with pc := s.pc + 1 }

/-- The load from program memory at the word address in Rs: the loaded word, or the fault that names the address (spec
44_zero_two_operand.md, T13; decisions D1, D2). -/
def Obligations.ProgramMemoryLoad : Prop :=
  ∀ (rs rd : Reg) (s : State),
    (∀ w, programWord s (s.reg rs) = some w →
      exec (.mov16pr rs rd) s = .next { s with regs := s.regs.set rd w, pc := s.pc + 1 }) ∧
    (programWord s (s.reg rs) = none → exec (.mov16pr rs rd) s = .fault (.unmappedProgram (s.reg rs)))

/-- `mov SR, Rd` writes a value of the seven flags alone, whatever else the state holds, and changes no flag (spec
43_t11_one_reg.md, op2 = 01; decision D22; `sarImage` is a free value, log 27). -/
def Obligations.StatusReadDependsOnFlagsAlone : Prop :=
  ∃ image : Sar → Word, ∀ (rd : Reg) (s : State),
    exec (.movSr rd) s = .next { s with regs := s.regs.set rd (image s.sar), pc := s.pc + 1 }

/-- `eint` sets I, `dint` clears it, and no other flag changes (spec 44_zero_two_operand.md, T12; decision D19). -/
def Obligations.InterruptEnableAndDisable : Prop :=
  ∀ s : State,
    exec .eint s = .next { s with sar := { s.sar with i := true }, pc := s.pc + 1 } ∧
    exec .dint s = .next { s with sar := { s.sar with i := false }, pc := s.pc + 1 }

/-- The stops: `reti` is the fault InterruptUnmodelled in every state (spec's decision D20), and each of the 14
reserved blocks the fault ReservedEncoding of its own first word, unused bits included (decision D21). -/
def Obligations.RetiAndReservedBlocksStop : Prop :=
  ∀ s : State,
    exec .reti s = .fault .interruptUnmodelled ∧
    ∀ (w : Word) (rest : List Word) (i : Instr), decode (w :: rest) = .ok (i, rest) → i.wellFormed = false →
      exec i s = .fault (.reservedEncoding w)

/-! The checked machine. -/

/-- A step of the checked machine, which every run from a launch is made of (spec 10_state.md section 8,
60_exceptions.md sections 1 and 6, decisions D23, D28, D30): the fault of a fetch first; then, where the instruction
reads a register, SP or a flag that nothing has written, UninitialisedRead of such a one, before any other fault of its
rule; where all that it reads is written, what `exec` does, with the same fault, and after it exactly what it wrote is
written besides. A flag left as any value (D13, log 18) counts as written, a shift writes no flag (D15, log 20), a
select reads both its registers; which of several unwritten operands is named is left open here (log 6). -/
def Obligations.UnwrittenOperandsFault : Prop :=
  ∀ k : Tracked,
    (∀ f : Fault, fetch k.state = .error f → checkedStep k = .fault f) ∧
    ∀ i : Instr, fetch k.state = .ok i →
      ((∃ p, readsPlace i p ∧ p ∉ k.written) →
        ∃ p, readsPlace i p ∧ p ∉ k.written ∧ checkedStep k = .fault (.uninitialisedRead p)) ∧
      ((∀ p, readsPlace i p → p ∈ k.written) →
        (∀ t : State, exec i k.state = .next t →
          ∃ w, checkedStep k = .next { state := t, written := w } ∧
            ∀ p, p ∈ w ↔ p ∈ k.written ∨ writesPlace i p) ∧
        ∀ f : Fault, exec i k.state = .fault f → checkedStep k = .fault f)

/-- Never a silent value (spec 60_exceptions.md section 6, 10_state.md section 8, decisions D23, D28): what a register,
SP or a flag holds before anything has written it, which is the model's choice (log 1, 2, 3), shows in no step and no
run of the checked machine. Of two states that are the same where written, a step gives the same fault or again two such
states, and runs of any length end in the same way; the draws of any-value flags are the same in both (D13, log 18). -/
def Obligations.UnwrittenValuesNeverShow : Prop :=
  ∀ k j : Tracked, SameWhereWritten k j →
    (∀ f : Fault, checkedStep k = .fault f → checkedStep j = .fault f) ∧
    (∀ k' : Tracked, checkedStep k = .next k' → ∃ j', checkedStep j = .next j' ∧ SameWhereWritten k' j') ∧
    ∀ (endPc : Word) (fuel : Nat), SameResult (runTo endPc fuel k) (runTo endPc fuel j)
end

