-- ==== Sys2Proof/Laws/State.lean ====
section
/-! SUPPORT. One lemma per field per update of State, and the laws of the register file. -/

namespace Sys2Proof.Machine

/-! The register file. -/

@[simp] theorem RegFile.get_set (f : RegFile) (r q : Reg) (v : Word) :
    (f.set r v).get q = if q = r then v else f.get q := by
  cases r <;> cases q <;> rfl

@[simp] theorem RegFile.set_get (f : RegFile) (r : Reg) : f.set r (f.get r) = f := by
  cases r <;> rfl

@[simp] theorem RegFile.set_set (f : RegFile) (r : Reg) (u v : Word) : (f.set r u).set r v = f.set r v := by
  cases r <;> rfl

@[simp] theorem RegFile.set_reg (s : State) (r : Reg) : s.regs.set r (s.reg r) = s.regs := RegFile.set_get _ _

/-- Two register files with the same eight values are the same. -/
theorem RegFile.ext_get {f g : RegFile} (h : ∀ r, f.get r = g.get r) : f = g := by
  cases f
  cases g
  have h0 := h .r0
  have h1 := h .r1
  have h2 := h .r2
  have h3 := h .r3
  have h4 := h .r4
  have h5 := h .r5
  have h6 := h .r6
  have h7 := h .r7
  simp only [RegFile.get] at h0 h1 h2 h3 h4 h5 h6 h7
  simp [*]

/-! The flags. -/

@[simp] theorem Sar.get_set (f : Sar) (g h : Flag) (b : Bool) :
    (f.set g b).get h = if h = g then b else f.get h := by
  cases g <;> cases h <;> rfl

@[simp] theorem Sar.set_get (f : Sar) (g : Flag) : f.set g (f.get g) = f := by
  cases g <;> rfl

@[simp] theorem Sar.set_set (f : Sar) (g : Flag) (a b : Bool) : (f.set g a).set g b = f.set g b := by
  cases g <;> rfl

@[simp] theorem pcPlus_word (pc : Word) (n : Nat) : pcPlus cfg.pcUnit pc n = pc + BitVec.ofNat 16 n := by
  simp [pcPlus, unitsPerWord, cfg]


/-! `State.setReg`. -/

@[simp] theorem State.setReg_regs (s : State) (r : Reg) (v : Word) : (s.setReg r v).regs = s.regs.set r v := rfl
@[simp] theorem State.setReg_sp (s : State) (r : Reg) (v : Word) : (s.setReg r v).sp = s.sp := rfl
@[simp] theorem State.setReg_pc (s : State) (r : Reg) (v : Word) : (s.setReg r v).pc = s.pc := rfl
@[simp] theorem State.setReg_sar (s : State) (r : Reg) (v : Word) : (s.setReg r v).sar = s.sar := rfl
@[simp] theorem State.setReg_data (s : State) (r : Reg) (v : Word) : (s.setReg r v).data = s.data := rfl
@[simp] theorem State.setReg_prog (s : State) (r : Reg) (v : Word) : (s.setReg r v).prog = s.prog := rfl
@[simp] theorem State.setReg_draws (s : State) (r : Reg) (v : Word) : (s.setReg r v).draws = s.draws := rfl
@[simp] theorem State.setReg_reg (s : State) (r q : Reg) (v : Word) :
    (s.setReg r v).reg q = if q = r then v else s.reg q := RegFile.get_set _ _ _ _

/-! `State.setSp`. -/

@[simp] theorem State.setSp_regs (s : State) (v : Word) : (s.setSp v).regs = s.regs := rfl
@[simp] theorem State.setSp_sp (s : State) (v : Word) : (s.setSp v).sp = v := rfl
@[simp] theorem State.setSp_pc (s : State) (v : Word) : (s.setSp v).pc = s.pc := rfl
@[simp] theorem State.setSp_sar (s : State) (v : Word) : (s.setSp v).sar = s.sar := rfl
@[simp] theorem State.setSp_data (s : State) (v : Word) : (s.setSp v).data = s.data := rfl
@[simp] theorem State.setSp_prog (s : State) (v : Word) : (s.setSp v).prog = s.prog := rfl
@[simp] theorem State.setSp_draws (s : State) (v : Word) : (s.setSp v).draws = s.draws := rfl
@[simp] theorem State.setSp_reg (s : State) (v : Word) (q : Reg) : (s.setSp v).reg q = s.reg q := rfl

/-! `State.setPc`. -/

@[simp] theorem State.setPc_regs (s : State) (v : Word) : (s.setPc v).regs = s.regs := rfl
@[simp] theorem State.setPc_sp (s : State) (v : Word) : (s.setPc v).sp = s.sp := rfl
@[simp] theorem State.setPc_pc (s : State) (v : Word) : (s.setPc v).pc = v := rfl
@[simp] theorem State.setPc_sar (s : State) (v : Word) : (s.setPc v).sar = s.sar := rfl
@[simp] theorem State.setPc_data (s : State) (v : Word) : (s.setPc v).data = s.data := rfl
@[simp] theorem State.setPc_prog (s : State) (v : Word) : (s.setPc v).prog = s.prog := rfl
@[simp] theorem State.setPc_draws (s : State) (v : Word) : (s.setPc v).draws = s.draws := rfl
@[simp] theorem State.setPc_reg (s : State) (v : Word) (q : Reg) : (s.setPc v).reg q = s.reg q := rfl

/-! `State.setSar`. -/

@[simp] theorem State.setSar_regs (s : State) (f : Sar) : (s.setSar f).regs = s.regs := rfl
@[simp] theorem State.setSar_sp (s : State) (f : Sar) : (s.setSar f).sp = s.sp := rfl
@[simp] theorem State.setSar_pc (s : State) (f : Sar) : (s.setSar f).pc = s.pc := rfl
@[simp] theorem State.setSar_sar (s : State) (f : Sar) : (s.setSar f).sar = f := rfl
@[simp] theorem State.setSar_data (s : State) (f : Sar) : (s.setSar f).data = s.data := rfl
@[simp] theorem State.setSar_prog (s : State) (f : Sar) : (s.setSar f).prog = s.prog := rfl
@[simp] theorem State.setSar_draws (s : State) (f : Sar) : (s.setSar f).draws = s.draws := rfl
@[simp] theorem State.setSar_reg (s : State) (f : Sar) (q : Reg) : (s.setSar f).reg q = s.reg q := rfl

/-! `State.setData`. -/

@[simp] theorem State.setData_regs (s : State) (m : Memory) : (s.setData m).regs = s.regs := rfl
@[simp] theorem State.setData_sp (s : State) (m : Memory) : (s.setData m).sp = s.sp := rfl
@[simp] theorem State.setData_pc (s : State) (m : Memory) : (s.setData m).pc = s.pc := rfl
@[simp] theorem State.setData_sar (s : State) (m : Memory) : (s.setData m).sar = s.sar := rfl
@[simp] theorem State.setData_data (s : State) (m : Memory) : (s.setData m).data = m := rfl
@[simp] theorem State.setData_prog (s : State) (m : Memory) : (s.setData m).prog = s.prog := rfl
@[simp] theorem State.setData_draws (s : State) (m : Memory) : (s.setData m).draws = s.draws := rfl
@[simp] theorem State.setData_reg (s : State) (m : Memory) (q : Reg) : (s.setData m).reg q = s.reg q := rfl

/-! `State.setProg`. -/

@[simp] theorem State.setProg_regs (s : State) (m : ProgramMemory) : (s.setProg m).regs = s.regs := rfl
@[simp] theorem State.setProg_sp (s : State) (m : ProgramMemory) : (s.setProg m).sp = s.sp := rfl
@[simp] theorem State.setProg_pc (s : State) (m : ProgramMemory) : (s.setProg m).pc = s.pc := rfl
@[simp] theorem State.setProg_sar (s : State) (m : ProgramMemory) : (s.setProg m).sar = s.sar := rfl
@[simp] theorem State.setProg_data (s : State) (m : ProgramMemory) : (s.setProg m).data = s.data := rfl
@[simp] theorem State.setProg_prog (s : State) (m : ProgramMemory) : (s.setProg m).prog = m := rfl
@[simp] theorem State.setProg_draws (s : State) (m : ProgramMemory) : (s.setProg m).draws = s.draws := rfl
@[simp] theorem State.setProg_reg (s : State) (m : ProgramMemory) (q : Reg) : (s.setProg m).reg q = s.reg q := rfl

/-! `State.advance`. -/

@[simp] theorem State.advance_regs (s : State) (n : Nat) : (s.advance n).regs = s.regs := rfl
@[simp] theorem State.advance_sp (s : State) (n : Nat) : (s.advance n).sp = s.sp := rfl
@[simp] theorem State.advance_pc (s : State) (n : Nat) : (s.advance n).pc = pcPlus cfg.pcUnit s.pc n := rfl
@[simp] theorem State.advance_sar (s : State) (n : Nat) : (s.advance n).sar = s.sar := rfl
@[simp] theorem State.advance_data (s : State) (n : Nat) : (s.advance n).data = s.data := rfl
@[simp] theorem State.advance_prog (s : State) (n : Nat) : (s.advance n).prog = s.prog := rfl
@[simp] theorem State.advance_draws (s : State) (n : Nat) : (s.advance n).draws = s.draws := rfl
@[simp] theorem State.advance_reg (s : State) (n : Nat) (q : Reg) : (s.advance n).reg q = s.reg q := rfl

/-! `State.setSRArith`. -/

@[simp] theorem State.setSRArith_regs (s : State) (f : AddResult) : (s.setSRArith f).regs = s.regs := rfl
@[simp] theorem State.setSRArith_sp (s : State) (f : AddResult) : (s.setSRArith f).sp = s.sp := rfl
@[simp] theorem State.setSRArith_pc (s : State) (f : AddResult) : (s.setSRArith f).pc = s.pc := rfl
@[simp] theorem State.setSRArith_sar (s : State) (f : AddResult) :
    (s.setSRArith f).sar = { s.sar with v := f.v, s := f.s, c := f.c, z := f.z } := rfl
@[simp] theorem State.setSRArith_data (s : State) (f : AddResult) : (s.setSRArith f).data = s.data := rfl
@[simp] theorem State.setSRArith_prog (s : State) (f : AddResult) : (s.setSRArith f).prog = s.prog := rfl
@[simp] theorem State.setSRArith_draws (s : State) (f : AddResult) : (s.setSRArith f).draws = s.draws := rfl
@[simp] theorem State.setSRArith_reg (s : State) (f : AddResult) (q : Reg) : (s.setSRArith f).reg q = s.reg q := rfl

/-! `State.setAR`. -/

@[simp] theorem State.setAR_regs (s : State) (f : AddResult) : (s.setAR f).regs = s.regs := rfl
@[simp] theorem State.setAR_sp (s : State) (f : AddResult) : (s.setAR f).sp = s.sp := rfl
@[simp] theorem State.setAR_pc (s : State) (f : AddResult) : (s.setAR f).pc = s.pc := rfl
@[simp] theorem State.setAR_sar (s : State) (f : AddResult) :
    (s.setAR f).sar = { s.sar with ac := f.c, az := f.z } := rfl
@[simp] theorem State.setAR_data (s : State) (f : AddResult) : (s.setAR f).data = s.data := rfl
@[simp] theorem State.setAR_prog (s : State) (f : AddResult) : (s.setAR f).prog = s.prog := rfl
@[simp] theorem State.setAR_draws (s : State) (f : AddResult) : (s.setAR f).draws = s.draws := rfl
@[simp] theorem State.setAR_reg (s : State) (f : AddResult) (q : Reg) : (s.setAR f).reg q = s.reg q := rfl

/-! `State.setSRLogic`. -/

@[simp] theorem State.setSRLogic_regs (s : State) (r : Word) : (s.setSRLogic r).regs = s.regs := rfl
@[simp] theorem State.setSRLogic_sp (s : State) (r : Word) : (s.setSRLogic r).sp = s.sp := rfl
@[simp] theorem State.setSRLogic_pc (s : State) (r : Word) : (s.setSRLogic r).pc = s.pc := rfl
@[simp] theorem State.setSRLogic_sar (s : State) (r : Word) :
    (s.setSRLogic r).sar = { s.sar with
      z := decide (r = 0), s := r.getLsbD 15, c := Config.freeBit s.draws, v := Config.freeBit (s.draws + 1) } := rfl
@[simp] theorem State.setSRLogic_data (s : State) (r : Word) : (s.setSRLogic r).data = s.data := rfl
@[simp] theorem State.setSRLogic_prog (s : State) (r : Word) : (s.setSRLogic r).prog = s.prog := rfl
@[simp] theorem State.setSRLogic_draws (s : State) (r : Word) : (s.setSRLogic r).draws = s.draws + 2 := rfl
@[simp] theorem State.setSRLogic_reg (s : State) (r : Word) (q : Reg) : (s.setSRLogic r).reg q = s.reg q := rfl

/-! `State.setShiftFlags`. -/

@[simp] theorem State.setShiftFlags_regs (s : State) : (s.setShiftFlags).regs = s.regs := rfl
@[simp] theorem State.setShiftFlags_sp (s : State) : (s.setShiftFlags).sp = s.sp := rfl
@[simp] theorem State.setShiftFlags_pc (s : State) : (s.setShiftFlags).pc = s.pc := rfl
@[simp] theorem State.setShiftFlags_sar (s : State) : (s.setShiftFlags).sar = s.sar := rfl
@[simp] theorem State.setShiftFlags_data (s : State) : (s.setShiftFlags).data = s.data := rfl
@[simp] theorem State.setShiftFlags_prog (s : State) : (s.setShiftFlags).prog = s.prog := rfl
@[simp] theorem State.setShiftFlags_draws (s : State) : (s.setShiftFlags).draws = s.draws := rfl
@[simp] theorem State.setShiftFlags_reg (s : State) (q : Reg) : (s.setShiftFlags).reg q = s.reg q := rfl

/-! `State.endMove`. -/

@[simp] theorem State.endMove_regs (s : State) (rd : Reg) (v : Word) : (s.endMove rd v).regs = s.regs.set rd v := rfl
@[simp] theorem State.endMove_sp (s : State) (rd : Reg) (v : Word) : (s.endMove rd v).sp = s.sp := rfl
@[simp] theorem State.endMove_pc (s : State) (rd : Reg) (v : Word) : (s.endMove rd v).pc = s.pc + 1 := rfl
@[simp] theorem State.endMove_sar (s : State) (rd : Reg) (v : Word) : (s.endMove rd v).sar = s.sar := rfl
@[simp] theorem State.endMove_data (s : State) (rd : Reg) (v : Word) : (s.endMove rd v).data = s.data := rfl
@[simp] theorem State.endMove_prog (s : State) (rd : Reg) (v : Word) : (s.endMove rd v).prog = s.prog := rfl
@[simp] theorem State.endMove_draws (s : State) (rd : Reg) (v : Word) : (s.endMove rd v).draws = s.draws := rfl
@[simp] theorem State.endMove_reg (s : State) (rd : Reg) (v : Word) (q : Reg) :
    (s.endMove rd v).reg q = if q = rd then v else s.reg q := RegFile.get_set _ _ _ _

/-! `State.endArith`. -/

@[simp] theorem State.endArith_regs (s : State) (rd : Reg) (f : AddResult) :
    (s.endArith rd f).regs = s.regs.set rd f.r := rfl
@[simp] theorem State.endArith_sp (s : State) (rd : Reg) (f : AddResult) : (s.endArith rd f).sp = s.sp := rfl
@[simp] theorem State.endArith_pc (s : State) (rd : Reg) (f : AddResult) : (s.endArith rd f).pc = s.pc + 1 := rfl
@[simp] theorem State.endArith_sar (s : State) (rd : Reg) (f : AddResult) :
    (s.endArith rd f).sar = { s.sar with v := f.v, s := f.s, c := f.c, z := f.z, ac := f.c, az := f.z } := rfl
@[simp] theorem State.endArith_data (s : State) (rd : Reg) (f : AddResult) : (s.endArith rd f).data = s.data := rfl
@[simp] theorem State.endArith_prog (s : State) (rd : Reg) (f : AddResult) : (s.endArith rd f).prog = s.prog := rfl
@[simp] theorem State.endArith_draws (s : State) (rd : Reg) (f : AddResult) : (s.endArith rd f).draws = s.draws := rfl
@[simp] theorem State.endArith_reg (s : State) (rd : Reg) (f : AddResult) (q : Reg) :
    (s.endArith rd f).reg q = if q = rd then f.r else s.reg q := RegFile.get_set _ _ _ _

/-! `State.endArithSp`. -/

@[simp] theorem State.endArithSp_regs (s : State) (f : AddResult) : (s.endArithSp f).regs = s.regs := rfl
@[simp] theorem State.endArithSp_sp (s : State) (f : AddResult) : (s.endArithSp f).sp = f.r := rfl
@[simp] theorem State.endArithSp_pc (s : State) (f : AddResult) : (s.endArithSp f).pc = s.pc + 1 := rfl
@[simp] theorem State.endArithSp_sar (s : State) (f : AddResult) :
    (s.endArithSp f).sar = { s.sar with v := f.v, s := f.s, c := f.c, z := f.z, ac := f.c, az := f.z } := rfl
@[simp] theorem State.endArithSp_data (s : State) (f : AddResult) : (s.endArithSp f).data = s.data := rfl
@[simp] theorem State.endArithSp_prog (s : State) (f : AddResult) : (s.endArithSp f).prog = s.prog := rfl
@[simp] theorem State.endArithSp_draws (s : State) (f : AddResult) : (s.endArithSp f).draws = s.draws := rfl
@[simp] theorem State.endArithSp_reg (s : State) (f : AddResult) (q : Reg) : (s.endArithSp f).reg q = s.reg q := rfl

/-! `State.endCompare`. -/

@[simp] theorem State.endCompare_regs (s : State) (f : AddResult) : (s.endCompare f).regs = s.regs := rfl
@[simp] theorem State.endCompare_sp (s : State) (f : AddResult) : (s.endCompare f).sp = s.sp := rfl
@[simp] theorem State.endCompare_pc (s : State) (f : AddResult) : (s.endCompare f).pc = s.pc + 1 := rfl
@[simp] theorem State.endCompare_sar (s : State) (f : AddResult) :
    (s.endCompare f).sar = { s.sar with v := f.v, s := f.s, c := f.c, z := f.z } := rfl
@[simp] theorem State.endCompare_data (s : State) (f : AddResult) : (s.endCompare f).data = s.data := rfl
@[simp] theorem State.endCompare_prog (s : State) (f : AddResult) : (s.endCompare f).prog = s.prog := rfl
@[simp] theorem State.endCompare_draws (s : State) (f : AddResult) : (s.endCompare f).draws = s.draws := rfl
@[simp] theorem State.endCompare_reg (s : State) (f : AddResult) (q : Reg) : (s.endCompare f).reg q = s.reg q := rfl

/-! `State.endLogic`. -/

@[simp] theorem State.endLogic_regs (s : State) (rd : Reg) (r : Word) :
    (s.endLogic rd r).regs = s.regs.set rd r := rfl
@[simp] theorem State.endLogic_sp (s : State) (rd : Reg) (r : Word) : (s.endLogic rd r).sp = s.sp := rfl
@[simp] theorem State.endLogic_pc (s : State) (rd : Reg) (r : Word) : (s.endLogic rd r).pc = s.pc + 1 := rfl
@[simp] theorem State.endLogic_sar (s : State) (rd : Reg) (r : Word) :
    (s.endLogic rd r).sar = { s.sar with
      z := decide (r = 0), s := r.getLsbD 15, c := Config.freeBit s.draws, v := Config.freeBit (s.draws + 1) } := rfl
@[simp] theorem State.endLogic_data (s : State) (rd : Reg) (r : Word) : (s.endLogic rd r).data = s.data := rfl
@[simp] theorem State.endLogic_prog (s : State) (rd : Reg) (r : Word) : (s.endLogic rd r).prog = s.prog := rfl
@[simp] theorem State.endLogic_draws (s : State) (rd : Reg) (r : Word) : (s.endLogic rd r).draws = s.draws + 2 := rfl
@[simp] theorem State.endLogic_reg (s : State) (rd : Reg) (r : Word) (q : Reg) :
    (s.endLogic rd r).reg q = if q = rd then r else s.reg q := RegFile.get_set _ _ _ _

/-! `State.endShift`. -/

@[simp] theorem State.endShift_regs (s : State) (rd : Reg) (r : Word) :
    (s.endShift rd r).regs = s.regs.set rd r := rfl
@[simp] theorem State.endShift_sp (s : State) (rd : Reg) (r : Word) : (s.endShift rd r).sp = s.sp := rfl
@[simp] theorem State.endShift_pc (s : State) (rd : Reg) (r : Word) : (s.endShift rd r).pc = s.pc + 1 := rfl
@[simp] theorem State.endShift_sar (s : State) (rd : Reg) (r : Word) : (s.endShift rd r).sar = s.sar := rfl
@[simp] theorem State.endShift_data (s : State) (rd : Reg) (r : Word) : (s.endShift rd r).data = s.data := rfl
@[simp] theorem State.endShift_prog (s : State) (rd : Reg) (r : Word) : (s.endShift rd r).prog = s.prog := rfl
@[simp] theorem State.endShift_draws (s : State) (rd : Reg) (r : Word) : (s.endShift rd r).draws = s.draws := rfl
@[simp] theorem State.endShift_reg (s : State) (rd : Reg) (r : Word) (q : Reg) :
    (s.endShift rd r).reg q = if q = rd then r else s.reg q := RegFile.get_set _ _ _ _

end Sys2Proof.Machine
end

