-- ==== Sys2Proof/Laws/Memory.lean ====
section
/-! SUPPORT. The laws of the memories: read after write, the canonical form, and what each access primitive does. -/

namespace Sys2Proof.Machine

/-! Lists of cells. -/

/-- Read after write, in any list, canonical or not. -/
@[simp] theorem Cells.read_write {α : Type} (m : List (Nat × α)) (a b : Nat) (v : α) :
    Cells.read (Cells.write m a v) b = if b = a then some v else Cells.read m b := by
  induction m with
  | nil =>
    rcases eq_or_ne b a with rfl | h
    · simp [Cells.read, Cells.write]
    · simp [Cells.read, Cells.write, h, Ne.symm h]
  | cons p rest ih =>
    obtain ⟨k, u⟩ := p
    by_cases h : b = a
    · subst h
      rw [if_pos rfl] at ih ⊢
      simp only [Cells.write]
      split_ifs with h1 h2
      · simp [Cells.read]
      · simp [Cells.read]
      · simp [Cells.read, ih, Ne.symm h2]
    · rw [if_neg h] at ih ⊢
      simp only [Cells.write]
      split_ifs with h1 h2
      · simp [Cells.read, Ne.symm h]
      · subst h2
        simp [Cells.read, Ne.symm h]
      · simp [Cells.read, ih]

/-- The addresses of a written list are those of the old one and the one written. -/
theorem Cells.mem_write {α : Type} (m : List (Nat × α)) (a : Nat) (v : α) (x : Nat) :
    x ∈ (Cells.write m a v).map Prod.fst ↔ x = a ∨ x ∈ m.map Prod.fst := by
  induction m with
  | nil => simp [Cells.write]
  | cons p rest ih =>
    obtain ⟨k, u⟩ := p
    simp only [Cells.write]
    split_ifs with h1 h2
    · simp
    · subst h2
      simp
    · rw [List.map_cons, List.mem_cons, ih, List.map_cons, List.mem_cons]
      tauto

/-- A write keeps the canonical form. -/
theorem Cells.write_wf {α : Type} (m : List (Nat × α)) (a : Nat) (v : α) (ha : a < 65536) (h : Cells.wf m) :
    Cells.wf (Cells.write m a v) := by
  refine ⟨?_, fun x hx => ?_⟩
  · obtain ⟨hs, -⟩ := h
    induction m with
    | nil => simp [Cells.write]
    | cons p rest ih =>
      obtain ⟨k, u⟩ := p
      rw [List.map_cons, List.pairwise_cons] at hs
      simp only [Cells.write]
      split_ifs with h1 h2
      · rw [List.map_cons, List.pairwise_cons, List.map_cons, List.pairwise_cons]
        refine ⟨fun y hy => ?_, hs⟩
        rcases List.mem_cons.1 hy with rfl | hy
        · exact h1
        · exact lt_trans h1 (hs.1 y hy)
      · subst h2
        rw [List.map_cons, List.pairwise_cons]
        exact hs
      · rw [List.map_cons, List.pairwise_cons]
        refine ⟨fun y hy => ?_, ih hs.2⟩
        rcases (Cells.mem_write rest a v y).1 hy with rfl | hy
        · exact lt_of_le_of_ne (not_lt.1 h1) (Ne.symm h2)
        · exact hs.1 y hy
  · rcases (Cells.mem_write m a v x).1 hx with rfl | hx
    · exact ha
    · exact h.2 x hx

/-- A write at a 16-bit address keeps the canonical form. -/
theorem Cells.write_word_wf {α : Type} (m : List (Nat × α)) (a : Word) (v : α) (h : Cells.wf m) :
    Cells.wf (Cells.write m a.toNat v) := Cells.write_wf m a.toNat v a.isLt h

/-! Addresses. -/

/-- The default map holds every address (R53). -/
@[simp] theorem inMap_default (a : Word) : inMap cfg.dataMap a = true := by
  have := a.isLt
  simp [inMap, cfg]
  omega

@[simp] theorem byteFault_default (a : Word) : byteFault a = none := by
  simp [byteFault]

/-- Under the default map alignment is all that can keep a word access from happening (R60). -/
theorem wordFault_odd {a : Word} (h : a.getLsbD 0 = true) : wordFault a = some (.misalignedWord a) := by
  rw [wordFault, if_pos h]

theorem wordFault_even {a : Word} (h : a.getLsbD 0 = false) : wordFault a = none := by
  rw [wordFault, if_neg (by rw [h]; decide)]
  simp only [byteFault_default]

/-- An even address and the one after it are different bytes. -/
theorem toNat_succ_of_even {a : Word} (h : a.getLsbD 0 = false) : (a + 1).toNat = a.toNat + 1 := by
  have h2 : a.toNat % 2 = 0 := by simpa [BitVec.getLsbD, Nat.testBit_zero] using h
  have := a.isLt
  simp [BitVec.toNat_add]
  omega

/-! The primitives. -/

/-- `MemRead(addr, 1)`: the byte, or the fault of a byte never written. -/
theorem memRead8_eq (s : State) (a : Word) : memRead8 s a = byteAt s.data a := by
  simp [memRead8]

/-- The byte at an address, by whether one is listed. -/
theorem byteAt_of_some {m : Memory} {a : Word} {b : Byte} (h : Cells.read m a.toNat = some b) :
    byteAt m a = .ok b := by simp [byteAt, h]

theorem byteAt_of_none {m : Memory} {a : Word} (h : Cells.read m a.toNat = none) :
    byteAt m a = .error (.uninitialisedRead (.byte a)) := by simp [byteAt, h]

theorem byteAt_eq_ok {m : Memory} {a : Word} {b : Byte} :
    byteAt m a = .ok b ↔ Cells.read m a.toNat = some b := by
  unfold byteAt
  split <;> simp_all

/-- All that `MemRead(addr, 2)` can do. -/
theorem memRead16_cases (s : State) (a : Word) :
    (a.getLsbD 0 = true ∧ memRead16 s a = .error (.misalignedWord a)) ∨
    (a.getLsbD 0 = false ∧ Cells.read s.data a.toNat = none ∧
      memRead16 s a = .error (.uninitialisedRead (.byte a))) ∨
    (a.getLsbD 0 = false ∧ (∃ b, Cells.read s.data a.toNat = some b) ∧ Cells.read s.data (a + 1).toNat = none ∧
      memRead16 s a = .error (.uninitialisedRead (.byte (a + 1)))) ∨
    (a.getLsbD 0 = false ∧ ∃ b0 b1, Cells.read s.data a.toNat = some b0 ∧
      Cells.read s.data (a + 1).toNat = some b1 ∧ memRead16 s a = .ok (joinBytes cfg.endian b0 b1)) := by
  cases h : a.getLsbD 0
  · cases h0 : Cells.read s.data a.toNat <;> cases h1 : Cells.read s.data (a + 1).toNat <;>
      simp only [memRead16, wordFault_even h, byteAt, h0, h1] <;> simp
  · exact .inl ⟨rfl, by simp only [memRead16, wordFault_odd h]⟩

/-- All that `MemWrite(addr, 1, v)` can do under the default map: write that byte. -/
theorem memWrite8_eq (s : State) (a : Word) (v : Byte) :
    memWrite8 s a v = .ok (s.setData (Cells.write s.data a.toNat v)) := by
  simp [memWrite8]

/-- All that `MemWrite(addr, 2, v)` can do under the default map. -/
theorem memWrite16_eq (s : State) (a v : Word) :
    memWrite16 s a v = if a.getLsbD 0 then .error (.misalignedWord a)
      else .ok (s.setData (Cells.write (Cells.write s.data a.toNat (lowerByte cfg.endian v))
        (a + 1).toNat (higherByte cfg.endian v))) := by
  cases h : a.getLsbD 0
  · simp only [memWrite16, wordFault_even h, Bool.false_eq_true, if_false]
  · simp only [memWrite16, wordFault_odd h, if_true]

/-- A word put together from its two bytes is the word, in either byte order. -/
@[simp] theorem joinBytes_split (e : Endian) (v : Word) : joinBytes e (lowerByte e v) (higherByte e v) = v := by
  cases e <;> apply BitVec.eq_of_getLsbD_eq <;> intro i hi <;>
    simp only [joinBytes, lowerByte, higherByte, BitVec.getLsbD_append, BitVec.getLsbD_extractLsb'] <;>
    split_ifs with h
  all_goals
    rw [decide_eq_true (by omega), Bool.true_and]
    congr 1
    omega

end Sys2Proof.Machine
end

