-- ==== Sys2Proof/Laws/Ops.lean ====
section
/-! SUPPORT. What each shared operation of the meanings can do, said once: the loads, the stores, the stack, the end
of an access, program memory, fetch. Everything is under the default parameters. -/

namespace Sys2Proof.Machine

/-! The end of an access. -/

theorem continueWith_eq_next {α : Type} {r : Except Fault α} {k : α → State} {t : State} :
    continueWith r k = .next t ↔ ∃ v, r = .ok v ∧ k v = t := by
  cases r <;> simp [continueWith, raise]

theorem continueWith_eq_fault {α : Type} {r : Except Fault α} {k : α → State} {f : Fault} :
    continueWith r k = .fault f ↔ r = .error f := by
  cases r <;> simp [continueWith, raise]

theorem continueWith_ne_refused {α : Type} (r : Except Fault α) (k : α → State) (x : Refusal) :
    continueWith r k ≠ .refused x := by
  cases r <;> simp [continueWith, raise]

@[simp] theorem continueWith_ok {α : Type} (v : α) (k : α → State) : continueWith (.ok v) k = .next (k v) := rfl

@[simp] theorem continueWith_error {α : Type} (f : Fault) (k : α → State) :
    continueWith (.error f) k = .fault f := rfl

/-! Loads. -/

/-- All that a word load can do. -/
theorem loadWord_cases (s : State) (rd : Reg) (ea : Word) (n : Nat) :
    (ea.getLsbD 0 = true ∧ loadWord s rd ea n = .fault (.misalignedWord ea)) ∨
    (ea.getLsbD 0 = false ∧ Cells.read s.data ea.toNat = none ∧
      loadWord s rd ea n = .fault (.uninitialisedRead (.byte ea))) ∨
    (ea.getLsbD 0 = false ∧ (∃ b, Cells.read s.data ea.toNat = some b) ∧
      Cells.read s.data (ea + 1).toNat = none ∧ loadWord s rd ea n = .fault (.uninitialisedRead (.byte (ea + 1)))) ∨
    (ea.getLsbD 0 = false ∧ ∃ b0 b1, Cells.read s.data ea.toNat = some b0 ∧
      Cells.read s.data (ea + 1).toNat = some b1 ∧
      loadWord s rd ea n = .next ((s.setReg rd (joinBytes cfg.endian b0 b1)).advance n)) := by
  unfold loadWord
  obtain ⟨h, e⟩ | ⟨h, h0, e⟩ | ⟨h, h0, h1, e⟩ | ⟨h, b0, b1, h0, h1, e⟩ := memRead16_cases s ea
  · exact .inl ⟨h, by rw [e]; rfl⟩
  · exact .inr (.inl ⟨h, h0, by rw [e]; rfl⟩)
  · exact .inr (.inr (.inl ⟨h, h0, h1, by rw [e]; rfl⟩))
  · exact .inr (.inr (.inr ⟨h, b0, b1, h0, h1, by rw [e]; rfl⟩))

/-- All that a zero-extending byte load can do. -/
theorem loadZeroByte_cases (s : State) (rd : Reg) (ea : Word) (n : Nat) :
    (Cells.read s.data ea.toNat = none ∧ loadZeroByte s rd ea n = .fault (.uninitialisedRead (.byte ea))) ∨
    (∃ b, Cells.read s.data ea.toNat = some b ∧
      loadZeroByte s rd ea n = .next ((s.setReg rd (b.setWidth 16)).advance n)) := by
  unfold loadZeroByte
  rw [memRead8_eq]
  cases h : Cells.read s.data ea.toNat with
  | none => exact .inl ⟨rfl, by rw [byteAt_of_none h]; rfl⟩
  | some b => exact .inr ⟨b, rfl, by rw [byteAt_of_some h]; rfl⟩

/-- All that a sign-extending byte load can do. -/
theorem loadSignByte_cases (s : State) (rd : Reg) (ea : Word) (n : Nat) :
    (Cells.read s.data ea.toNat = none ∧ loadSignByte s rd ea n = .fault (.uninitialisedRead (.byte ea))) ∨
    (∃ b, Cells.read s.data ea.toNat = some b ∧
      loadSignByte s rd ea n = .next ((s.setReg rd (b.signExtend 16)).advance n)) := by
  unfold loadSignByte
  rw [memRead8_eq]
  cases h : Cells.read s.data ea.toNat with
  | none => exact .inl ⟨rfl, by rw [byteAt_of_none h]; rfl⟩
  | some b => exact .inr ⟨b, rfl, by rw [byteAt_of_some h]; rfl⟩

/-! Stores. -/

/-- The two bytes of a word written at an address (R57). -/
def Memory.writeWord (m : Memory) (ea v : Word) : Memory :=
  Cells.write (Cells.write m ea.toNat (lowerByte cfg.endian v)) (ea + 1).toNat (higherByte cfg.endian v)

/-- What a word write leaves at each address. -/
theorem Memory.read_writeWord (m : Memory) {ea : Word} (h : ea.getLsbD 0 = false) (v : Word) (a : Nat) :
    Cells.read (Memory.writeWord m ea v) a =
      if a = ea.toNat then some (lowerByte cfg.endian v)
      else if a = (ea + 1).toNat then some (higherByte cfg.endian v)
      else Cells.read m a := by
  rw [Memory.writeWord, Cells.read_write, Cells.read_write, toNat_succ_of_even h]
  split_ifs <;> first | rfl | omega

theorem Memory.writeWord_wf {m : Memory} (h : Memory.wf m) (ea v : Word) : Memory.wf (Memory.writeWord m ea v) :=
  Cells.write_word_wf _ _ _ (Cells.write_word_wf _ _ _ h)

/-- All that `MemWrite(addr, 2, v)` can do. -/
theorem memWrite16_cases (s : State) (ea v : Word) :
    (ea.getLsbD 0 = true ∧ memWrite16 s ea v = .error (.misalignedWord ea)) ∨
    (ea.getLsbD 0 = false ∧ memWrite16 s ea v = .ok (s.setData (Memory.writeWord s.data ea v))) := by
  rw [memWrite16_eq]
  cases h : ea.getLsbD 0
  · exact .inr ⟨rfl, rfl⟩
  · exact .inl ⟨rfl, rfl⟩

/-- All that a word store can do. -/
theorem storeWord_cases (s : State) (rd : Reg) (ea : Word) (n : Nat) :
    (ea.getLsbD 0 = true ∧ storeWord s rd ea n = .fault (.misalignedWord ea)) ∨
    (ea.getLsbD 0 = false ∧
      storeWord s rd ea n = .next ((s.setData (Memory.writeWord s.data ea (s.reg rd))).advance n)) := by
  unfold storeWord
  obtain ⟨h, e⟩ | ⟨h, e⟩ := memWrite16_cases s ea (s.reg rd)
  · exact .inl ⟨h, by rw [e]; rfl⟩
  · exact .inr ⟨h, by rw [e]; rfl⟩

/-- All that a byte store can do: it never faults under the default map. -/
theorem storeByte_eq (s : State) (rd : Reg) (ea : Word) (n : Nat) :
    storeByte s rd ea n =
      .next ((s.setData (Cells.write s.data ea.toNat ((s.reg rd).extractLsb' 0 8))).advance n) := by
  rw [storeByte, memWrite8_eq]
  rfl

/-! The stack. -/

/-- All that pushing a word can do. -/
theorem pushWord_cases (s : State) (v : Word) :
    ((s.sp - 2).getLsbD 0 = true ∧ pushWord s v = .error (.misalignedWord (s.sp - 2))) ∨
    ((s.sp - 2).getLsbD 0 = false ∧
      pushWord s v = .ok ((s.setData (Memory.writeWord s.data (s.sp - 2) v)).setSp (s.sp - 2))) := by
  unfold pushWord
  obtain ⟨h, e⟩ | ⟨h, e⟩ := memWrite16_cases s (s.sp - 2) v
  · exact .inl ⟨h, by rw [e]⟩
  · exact .inr ⟨h, by rw [e]⟩

/-- All that popping a word can do. -/
theorem popWord_cases (s : State) :
    (s.sp.getLsbD 0 = true ∧ popWord s = .error (.misalignedWord s.sp)) ∨
    (s.sp.getLsbD 0 = false ∧ Cells.read s.data s.sp.toNat = none ∧
      popWord s = .error (.uninitialisedRead (.byte s.sp))) ∨
    (s.sp.getLsbD 0 = false ∧ (∃ b, Cells.read s.data s.sp.toNat = some b) ∧
      Cells.read s.data (s.sp + 1).toNat = none ∧ popWord s = .error (.uninitialisedRead (.byte (s.sp + 1)))) ∨
    (s.sp.getLsbD 0 = false ∧ ∃ b0 b1, Cells.read s.data s.sp.toNat = some b0 ∧
      Cells.read s.data (s.sp + 1).toNat = some b1 ∧
      popWord s = .ok (joinBytes cfg.endian b0 b1, s.setSp (s.sp + 2))) := by
  unfold popWord
  obtain ⟨h, e⟩ | ⟨h, h0, e⟩ | ⟨h, h0, h1, e⟩ | ⟨h, b0, b1, h0, h1, e⟩ := memRead16_cases s s.sp
  · exact .inl ⟨h, by rw [e]⟩
  · exact .inr (.inl ⟨h, h0, by rw [e]⟩)
  · exact .inr (.inr (.inl ⟨h, h0, h1, by rw [e]⟩))
  · exact .inr (.inr (.inr ⟨h, b0, b1, h0, h1, by rw [e]⟩))

/-- All that a call can do. -/
theorem callTo_cases (s : State) (target : Word) :
    ((s.sp - 2).getLsbD 0 = true ∧ callTo s target = .fault (.misalignedWord (s.sp - 2))) ∨
    ((s.sp - 2).getLsbD 0 = false ∧
      callTo s target =
        .next (((s.setData (Memory.writeWord s.data (s.sp - 2) (s.pc + 1))).setSp (s.sp - 2)).setPc target)) := by
  unfold callTo
  rw [pcPlus_word]
  obtain ⟨h, e⟩ | ⟨h, e⟩ := pushWord_cases s (s.pc + BitVec.ofNat 16 1)
  · exact .inl ⟨h, by rw [e]; rfl⟩
  · exact .inr ⟨h, by rw [e]; rfl⟩

/-- Moving SP by 2 keeps whether it is odd. -/
theorem even_sub_two (a : Word) : (a - 2).getLsbD 0 = a.getLsbD 0 := by
  have := a.isLt
  simp only [BitVec.getLsbD, Nat.testBit_zero, BitVec.toNat_sub]
  congr 1
  simp
  omega

/-! Program memory and fetch. -/

/-- `ProgRead(addr)` with a word-counting PC (R58). -/
theorem progRead_eq (m : ProgramMemory) (a : Word) :
    progRead m a = match Cells.read m a.toNat with
      | some w => .ok w
      | none => .error (.unmappedProgram a) := by
  unfold progRead
  exact if_neg (by simp [cfg])

theorem progRead_of_some {m : ProgramMemory} {a w : Word} (h : Cells.read m a.toNat = some w) :
    progRead m a = .ok w := by rw [progRead_eq, h]

theorem progRead_of_none {m : ProgramMemory} {a : Word} (h : Cells.read m a.toNat = none) :
    progRead m a = .error (.unmappedProgram a) := by rw [progRead_eq, h]

/-- The words at an address, by what is loaded there and at the next. -/
theorem wordsAt_none {m : ProgramMemory} {pc : Word} (h : Cells.read m pc.toNat = none) : wordsAt m pc = [] := by
  rw [wordsAt, progRead_of_none h]

theorem wordsAt_one {m : ProgramMemory} {pc w : Word} (h : Cells.read m pc.toNat = some w)
    (h2 : Cells.read m (pc + 1).toNat = none) : wordsAt m pc = [w] := by
  rw [wordsAt, progRead_of_some h]
  have e : progRead m (pcPlus cfg.pcUnit pc 1) = _ := progRead_of_none h2
  simp only [e]

theorem wordsAt_two {m : ProgramMemory} {pc w w2 : Word} (h : Cells.read m pc.toNat = some w)
    (h2 : Cells.read m (pc + 1).toNat = some w2) : wordsAt m pc = [w, w2] := by
  rw [wordsAt, progRead_of_some h]
  have e : progRead m (pcPlus cfg.pcUnit pc 1) = _ := progRead_of_some h2
  simp only [e]

/-- With the interrupt agent absent a step is a fetch and an execution. -/
theorem step_eq (s : State) : step s = match fetch s with
    | .ok i => exec i s
    | .error f => .fault f := by
  rw [step, if_neg (by simp [interruptDue, cfg])]
  rfl

theorem step_of_fetch {s : State} {i : Instr} (h : fetch s = .ok i) : step s = exec i s := by
  rw [step_eq, h]

/-- A step that answers a next state is the execution of a fetched instruction. -/
theorem step_eq_next {s t : State} (h : step s = .next t) : ∃ i, fetch s = .ok i ∧ exec i s = .next t := by
  rw [step_eq] at h
  cases hf : fetch s with
  | ok i => exact ⟨i, rfl, by simpa [hf] using h⟩
  | error f => simp [hf] at h

end Sys2Proof.Machine
end

