-- ==== Sys2Proof/Laws/Checked.lean ====
section
/-! SUPPORT. What the checked machine can do, said once: which operand it finds unwritten, an execution, a step. -/

namespace Sys2Proof.Machine

/-- No operand is unwritten exactly when all are written. -/
theorem unwrittenOperand_eq_none {k : Tracked} {i : Instr} :
    k.unwrittenOperand i = none ↔ ∀ p ∈ operandsOf i, p ∈ k.written := by
  simp [Tracked.unwrittenOperand, List.find?_eq_none]

/-- The operand found unwritten is an operand and is not written. -/
theorem unwrittenOperand_eq_some {k : Tracked} {i : Instr} {p : Place} (h : k.unwrittenOperand i = some p) :
    p ∈ operandsOf i ∧ p ∉ k.written :=
  ⟨List.mem_of_find?_eq_some h, by simpa using List.find?_some h⟩

/-- All that a checked execution can do. -/
theorem checkedExec_cases (i : Instr) (k : Tracked) :
    (∃ p ∈ operandsOf i, p ∉ k.written ∧ checkedExec i k = .fault (.uninitialisedRead p)) ∨
    ((∀ p ∈ operandsOf i, p ∈ k.written) ∧
      ((∃ t, exec i k.state = .next t ∧
          checkedExec i k = .next { state := t, written := resultsOf i ∪ k.written }) ∨
        (∃ f, exec i k.state = .fault f ∧ checkedExec i k = .fault f) ∨
        (∃ r, exec i k.state = .refused r ∧ checkedExec i k = .refused r))) := by
  unfold checkedExec
  cases h : k.unwrittenOperand i with
  | some p => exact .inl ⟨p, (unwrittenOperand_eq_some h).1, (unwrittenOperand_eq_some h).2, rfl⟩
  | none =>
    refine .inr ⟨unwrittenOperand_eq_none.1 h, ?_⟩
    cases e : exec i k.state <;> simp

/-- With every operand written a checked execution runs `exec`. -/
theorem checkedExec_of_written {k : Tracked} {i : Instr} {t : State} (h : ∀ p ∈ operandsOf i, p ∈ k.written)
    (e : exec i k.state = .next t) :
    checkedExec i k = .next { state := t, written := resultsOf i ∪ k.written } := by
  rw [checkedExec, unwrittenOperand_eq_none.2 h, e]

/-- With the interrupt agent absent a checked step is a fetch and a checked execution. -/
theorem checkedStep_eq (k : Tracked) : checkedStep k = match fetch k.state with
    | .ok i => checkedExec i k
    | .error f => .fault f := by
  unfold checkedStep
  exact if_neg (by simp [interruptDue, cfg])

theorem checkedStep_of_fetch {k : Tracked} {i : Instr} (h : fetch k.state = .ok i) :
    checkedStep k = checkedExec i k := by
  rw [checkedStep_eq, h]

/-- A checked step that answers a next state is the step of the machine. -/
theorem checkedStep_eq_next {k j : Tracked} (h : checkedStep k = .next j) : step k.state = .next j.state := by
  rw [checkedStep_eq] at h
  cases hf : fetch k.state with
  | error f => simp [hf] at h
  | ok i =>
    rw [step_of_fetch hf]
    simp only [hf] at h
    obtain ⟨p, -, -, e⟩ | ⟨-, ⟨t, ht, e⟩ | ⟨f, -, e⟩ | ⟨r, -, e⟩⟩ := checkedExec_cases i k <;>
      rw [e] at h <;> cases h
    exact ht

end Sys2Proof.Machine
end

