-- ==== Sys2Proof/Laws/Decode.lean ====
section
/-! SUPPORT. How the prefix tree reads the leading bits of a word, and what the decoder sees in each field of the words
the encoder makes. -/

namespace Sys2Proof

@[simp] theorem Reg.ofBits_bits (r : Reg) : Reg.ofBits r.bits = r := by
  cases r <;> rfl

@[simp] theorem Reg.bits_ofBits (b : BitVec 3) : (Reg.ofBits b).bits = b := by
  revert b
  decide

/-- A register field read back. -/
theorem regAt_of_extract {w : Word} {lo : Nat} {r : Reg} (h : w.extractLsb' lo 3 = r.bits) : regAt w lo = r := by
  rw [regAt, h, Reg.ofBits_bits]

/-! A field compared with a value, bit by bit. -/

theorem extract1_eq (w : Word) (lo : Nat) (v : BitVec 1) :
    w.extractLsb' lo 1 = v ↔ w.getLsbD lo = v.getLsbD 0 := by
  refine ⟨fun h => by simp [← h], fun h => ?_⟩
  ext i hi
  obtain rfl : i = 0 := by omega
  simpa using h

theorem extract2_eq (w : Word) (lo : Nat) (v : BitVec 2) :
    w.extractLsb' lo 2 = v ↔ w.getLsbD (lo + 1) = v.getLsbD 1 ∧ w.getLsbD lo = v.getLsbD 0 := by
  refine ⟨fun h => by simp [← h], fun ⟨h1, h0⟩ => ?_⟩
  ext i hi
  obtain rfl | rfl : i = 0 ∨ i = 1 := by omega
  · simpa using h0
  · simpa using h1

theorem extract3_eq (w : Word) (lo : Nat) (v : BitVec 3) :
    w.extractLsb' lo 3 = v ↔
      w.getLsbD (lo + 2) = v.getLsbD 2 ∧ w.getLsbD (lo + 1) = v.getLsbD 1 ∧ w.getLsbD lo = v.getLsbD 0 := by
  refine ⟨fun h => by simp [← h], fun ⟨h2, h1, h0⟩ => ?_⟩
  ext i hi
  obtain rfl | rfl | rfl : i = 0 ∨ i = 1 ∨ i = 2 := by omega
  · simpa using h0
  · simpa using h1
  · simpa using h2

theorem extract4_eq (w : Word) (lo : Nat) (v : BitVec 4) :
    w.extractLsb' lo 4 = v ↔
      w.getLsbD (lo + 3) = v.getLsbD 3 ∧ w.getLsbD (lo + 2) = v.getLsbD 2 ∧
      w.getLsbD (lo + 1) = v.getLsbD 1 ∧ w.getLsbD lo = v.getLsbD 0 := by
  refine ⟨fun h => by simp [← h], fun ⟨h3, h2, h1, h0⟩ => ?_⟩
  ext i hi
  obtain rfl | rfl | rfl | rfl : i = 0 ∨ i = 1 ∨ i = 2 ∨ i = 3 := by omega
  · simpa using h0
  · simpa using h1
  · simpa using h2
  · simpa using h3

/-! The leaf a word reaches, from its leading bits (R96). -/

theorem decodeFirst_T1 {w : Word} (h15 : w.getLsbD 15 = true) (h14 : w.getLsbD 14 = true)
    (h13 : w.getLsbD 13 = true) :
    decodeFirst w = .whole (decodeT1 w) := by
  simp only [decodeFirst, extract1_eq, extract2_eq, extract3_eq, extract4_eq, Nat.reduceAdd, h15, h14, h13]
  simp

theorem decodeFirst_T2 {w : Word} (h15 : w.getLsbD 15 = true) (h14 : w.getLsbD 14 = true)
    (h13 : w.getLsbD 13 = false) (h12 : w.getLsbD 12 = true) :
    decodeFirst w = .whole (decodeT2 w) := by
  simp only [decodeFirst, extract1_eq, extract2_eq, extract3_eq, extract4_eq, Nat.reduceAdd, h15, h14, h13, h12]
  simp

theorem decodeFirst_T6 {w : Word} (h15 : w.getLsbD 15 = true) (h14 : w.getLsbD 14 = true)
    (h13 : w.getLsbD 13 = false) (h12 : w.getLsbD 12 = false) (h8 : w.getLsbD 8 = true) :
    decodeFirst w = .whole (decodeT6 w) := by
  simp only [decodeFirst, extract1_eq, extract2_eq, extract3_eq, extract4_eq, Nat.reduceAdd, h15, h14, h13, h12, h8]
  simp

theorem decodeFirst_T10 {w : Word} (h15 : w.getLsbD 15 = true) (h14 : w.getLsbD 14 = true)
    (h13 : w.getLsbD 13 = false) (h12 : w.getLsbD 12 = false) (h8 : w.getLsbD 8 = false) :
    decodeFirst w = .whole (decodeT10 w) := by
  simp only [decodeFirst, extract1_eq, extract2_eq, extract3_eq, extract4_eq, Nat.reduceAdd, h15, h14, h13, h12, h8]
  simp

theorem decodeFirst_T7 {w : Word} (h15 : w.getLsbD 15 = true) (h14 : w.getLsbD 14 = false) :
    decodeFirst w = .whole (decodeT7 w) := by
  simp only [decodeFirst, extract1_eq, extract2_eq, extract3_eq, extract4_eq, Nat.reduceAdd, h15, h14]
  simp

theorem decodeFirst_T8 {w : Word} (h15 : w.getLsbD 15 = false) (h14 : w.getLsbD 14 = true)
    (h8 : w.getLsbD 8 = true) :
    decodeFirst w = .whole (decodeT8 w) := by
  simp only [decodeFirst, extract1_eq, extract2_eq, extract3_eq, extract4_eq, Nat.reduceAdd, h15, h14, h8]
  simp

theorem decodeFirst_T9 {w : Word} (h15 : w.getLsbD 15 = false) (h14 : w.getLsbD 14 = true)
    (h8 : w.getLsbD 8 = false) :
    decodeFirst w = .whole (decodeT9 w) := by
  simp only [decodeFirst, extract1_eq, extract2_eq, extract3_eq, extract4_eq, Nat.reduceAdd, h15, h14, h8]
  simp

theorem decodeFirst_T5 {w : Word} (h15 : w.getLsbD 15 = false) (h14 : w.getLsbD 14 = false)
    (h13 : w.getLsbD 13 = true) :
    decodeFirst w = .whole (decodeT5 w) := by
  simp only [decodeFirst, extract1_eq, extract2_eq, extract3_eq, extract4_eq, Nat.reduceAdd, h15, h14, h13]
  simp

theorem decodeFirst_T4 {w : Word} (h15 : w.getLsbD 15 = false) (h14 : w.getLsbD 14 = false)
    (h13 : w.getLsbD 13 = false) (h12 : w.getLsbD 12 = true) :
    decodeFirst w = .whole (decodeT4 w) := by
  simp only [decodeFirst, extract1_eq, extract2_eq, extract3_eq, extract4_eq, Nat.reduceAdd, h15, h14, h13, h12]
  simp

theorem decodeFirst_T3 {w : Word} (h15 : w.getLsbD 15 = false) (h14 : w.getLsbD 14 = false)
    (h13 : w.getLsbD 13 = false) (h12 : w.getLsbD 12 = false) (h8 : w.getLsbD 8 = true) (h7 : w.getLsbD 7 = true) :
    decodeFirst w = .whole (decodeT3 w) := by
  simp only [decodeFirst, extract1_eq, extract2_eq, extract3_eq, extract4_eq, Nat.reduceAdd, h15, h14, h13, h12, h8, h7]
  simp

theorem decodeFirst_T11 {w : Word} (h15 : w.getLsbD 15 = false) (h14 : w.getLsbD 14 = false)
    (h13 : w.getLsbD 13 = false) (h12 : w.getLsbD 12 = false) (h8 : w.getLsbD 8 = true) (h7 : w.getLsbD 7 = false) :
    decodeFirst w = decodeT11 w := by
  simp only [decodeFirst, extract1_eq, extract2_eq, extract3_eq, extract4_eq, Nat.reduceAdd, h15, h14, h13, h12, h8, h7]
  simp

theorem decodeFirst_T12 {w : Word} (h15 : w.getLsbD 15 = false) (h14 : w.getLsbD 14 = false)
    (h13 : w.getLsbD 13 = false) (h12 : w.getLsbD 12 = false) (h8 : w.getLsbD 8 = false) (h7 : w.getLsbD 7 = true) :
    decodeFirst w = .whole (decodeT12 w) := by
  simp only [decodeFirst, extract1_eq, extract2_eq, extract3_eq, extract4_eq, Nat.reduceAdd, h15, h14, h13, h12, h8, h7]
  simp

theorem decodeFirst_T13 {w : Word} (h15 : w.getLsbD 15 = false) (h14 : w.getLsbD 14 = false)
    (h13 : w.getLsbD 13 = false) (h12 : w.getLsbD 12 = false) (h8 : w.getLsbD 8 = false) (h7 : w.getLsbD 7 = false) :
    decodeFirst w = .whole (decodeT13 w) := by
  simp only [decodeFirst, extract1_eq, extract2_eq, extract3_eq, extract4_eq, Nat.reduceAdd, h15, h14, h13, h12, h8, h7]
  simp

/-! The fields of encoded words. -/

@[simp] theorem extract_wordT1_12_1 (o : BitVec 1) (a : BitVec 12) :
    (wordT1 o a).extractLsb' 12 1 = o := by
  ext i hi
  simp [wordT1, place]
  interval_cases i
  simp

@[simp] theorem extract_wordT1_0_12 (o : BitVec 1) (a : BitVec 12) :
    (wordT1 o a).extractLsb' 0 12 = a := by
  ext i hi
  simp [wordT1, place]
  interval_cases i <;> simp

@[simp] theorem extract_wordT2_9_3 (cc : BitVec 3) (a : BitVec 9) :
    (wordT2 cc a).extractLsb' 9 3 = cc := by
  ext i hi
  simp [wordT2, place]
  interval_cases i <;> simp

@[simp] theorem extract_wordT2_0_9 (cc : BitVec 3) (a : BitVec 9) :
    (wordT2 cc a).extractLsb' 0 9 = a := by
  ext i hi
  simp [wordT2, place]
  interval_cases i <;> simp

@[simp] theorem extract_wordT3_9_3 (cc : BitVec 3) (rd : Reg) :
    (wordT3 cc rd).extractLsb' 9 3 = cc := by
  ext i hi
  simp [wordT3, place]
  interval_cases i <;> simp

@[simp] theorem regAt_wordT3_0 (cc : BitVec 3) (rd : Reg) :
    regAt (wordT3 cc rd) 0 = rd := by
  apply regAt_of_extract
  ext i hi
  simp [wordT3, place]
  interval_cases i <;> simp

@[simp] theorem extract_wordT4_9_3 (cc : BitVec 3) (rn rs rd : Reg) :
    (wordT4 cc rn rs rd).extractLsb' 9 3 = cc := by
  ext i hi
  simp [wordT4, place]
  interval_cases i <;> simp

@[simp] theorem regAt_wordT4_6 (cc : BitVec 3) (rn rs rd : Reg) :
    regAt (wordT4 cc rn rs rd) 6 = rn := by
  apply regAt_of_extract
  ext i hi
  simp [wordT4, place]
  interval_cases i <;> simp

@[simp] theorem regAt_wordT4_3 (cc : BitVec 3) (rn rs rd : Reg) :
    regAt (wordT4 cc rn rs rd) 3 = rs := by
  apply regAt_of_extract
  ext i hi
  simp [wordT4, place]
  interval_cases i <;> simp

@[simp] theorem regAt_wordT4_0 (cc : BitVec 3) (rn rs rd : Reg) :
    regAt (wordT4 cc rn rs rd) 0 = rd := by
  apply regAt_of_extract
  ext i hi
  simp [wordT4, place]
  interval_cases i <;> simp

@[simp] theorem extract_wordT5_10_3 (op : BitVec 4) (rn rs rd : Reg) :
    (wordT5 op rn rs rd).extractLsb' 10 3 = op.extractLsb' 1 3 := by
  ext i hi
  simp [wordT5, place]
  interval_cases i <;> simp

@[simp] theorem extract_wordT5_9_1 (op : BitVec 4) (rn rs rd : Reg) :
    (wordT5 op rn rs rd).extractLsb' 9 1 = op.extractLsb' 0 1 := by
  ext i hi
  simp [wordT5, place]
  interval_cases i
  simp

@[simp] theorem regAt_wordT5_6 (op : BitVec 4) (rn rs rd : Reg) :
    regAt (wordT5 op rn rs rd) 6 = rn := by
  apply regAt_of_extract
  ext i hi
  simp [wordT5, place]
  interval_cases i <;> simp

@[simp] theorem regAt_wordT5_3 (op : BitVec 4) (rn rs rd : Reg) :
    regAt (wordT5 op rn rs rd) 3 = rs := by
  apply regAt_of_extract
  ext i hi
  simp [wordT5, place]
  interval_cases i <;> simp

@[simp] theorem regAt_wordT5_0 (op : BitVec 4) (rn rs rd : Reg) :
    regAt (wordT5 op rn rs rd) 0 = rd := by
  apply regAt_of_extract
  ext i hi
  simp [wordT5, place]
  interval_cases i <;> simp

@[simp] theorem extract_wordReservedT5_10_3 (x : BitVec 9) :
    (wordReservedT5 x).extractLsb' 10 3 = 0b011#3 := by
  ext i hi
  simp [wordReservedT5, place]
  interval_cases i <;> simp

@[simp] theorem extract_wordReservedT5_9_1 (x : BitVec 9) :
    (wordReservedT5 x).extractLsb' 9 1 = 0b1#1 := by
  ext i hi
  simp [wordReservedT5, place]
  interval_cases i
  simp

@[simp] theorem extract_wordReservedT5_0_9 (x : BitVec 9) :
    (wordReservedT5 x).extractLsb' 0 9 = x := by
  ext i hi
  simp [wordReservedT5, place]
  interval_cases i <;> simp

@[simp] theorem regAt_wordT6_9 (op : BitVec 2) (rd : Reg) (k : BitVec 6) :
    regAt (wordT6 op rd k) 9 = rd := by
  apply regAt_of_extract
  ext i hi
  simp [wordT6, place]
  interval_cases i <;> simp

@[simp] theorem extract_wordT6_6_2 (op : BitVec 2) (rd : Reg) (k : BitVec 6) :
    (wordT6 op rd k).extractLsb' 6 2 = op := by
  ext i hi
  simp [wordT6, place]
  interval_cases i <;> simp

@[simp] theorem extract_wordT6_0_6 (op : BitVec 2) (rd : Reg) (k : BitVec 6) :
    (wordT6 op rd k).extractLsb' 0 6 = k := by
  ext i hi
  simp [wordT6, place]
  interval_cases i <;> simp

@[simp] theorem extract_wordReservedT6_9_3 (x : BitVec 3) (y : BitVec 7) :
    (wordReservedT6 x y).extractLsb' 9 3 = x := by
  ext i hi
  simp [wordReservedT6, place]
  interval_cases i <;> simp

@[simp] theorem extract_wordReservedT6_7_1 (x : BitVec 3) (y : BitVec 7) :
    (wordReservedT6 x y).extractLsb' 7 1 = 0b1#1 := by
  ext i hi
  simp [wordReservedT6, place]
  interval_cases i
  simp

@[simp] theorem extract_wordReservedT6_0_7 (x : BitVec 3) (y : BitVec 7) :
    (wordReservedT6 x y).extractLsb' 0 7 = y := by
  ext i hi
  simp [wordReservedT6, place]
  interval_cases i <;> simp

@[simp] theorem extract_wordT7_12_2 (op : BitVec 2) (rd rn : Reg) (k : BitVec 6) :
    (wordT7 op rd rn k).extractLsb' 12 2 = op := by
  ext i hi
  simp [wordT7, place]
  interval_cases i <;> simp

@[simp] theorem regAt_wordT7_9 (op : BitVec 2) (rd rn : Reg) (k : BitVec 6) :
    regAt (wordT7 op rd rn k) 9 = rd := by
  apply regAt_of_extract
  ext i hi
  simp [wordT7, place]
  interval_cases i <;> simp

@[simp] theorem regAt_wordT7_6 (op : BitVec 2) (rd rn : Reg) (k : BitVec 6) :
    regAt (wordT7 op rd rn k) 6 = rn := by
  apply regAt_of_extract
  ext i hi
  simp [wordT7, place]
  interval_cases i <;> simp

@[simp] theorem extract_wordT7_0_6 (op : BitVec 2) (rd rn : Reg) (k : BitVec 6) :
    (wordT7 op rd rn k).extractLsb' 0 6 = k := by
  ext i hi
  simp [wordT7, place]
  interval_cases i <;> simp

@[simp] theorem extract_wordT8_12_2 (op : BitVec 2) (rd : Reg) (k : BitVec 8) :
    (wordT8 op rd k).extractLsb' 12 2 = op := by
  ext i hi
  simp [wordT8, place]
  interval_cases i <;> simp

@[simp] theorem regAt_wordT8_9 (op : BitVec 2) (rd : Reg) (k : BitVec 8) :
    regAt (wordT8 op rd k) 9 = rd := by
  apply regAt_of_extract
  ext i hi
  simp [wordT8, place]
  interval_cases i <;> simp

@[simp] theorem extract_wordT8_0_8 (op : BitVec 2) (rd : Reg) (k : BitVec 8) :
    (wordT8 op rd k).extractLsb' 0 8 = k := by
  ext i hi
  simp [wordT8, place]
  interval_cases i <;> simp

@[simp] theorem extract_wordT9_12_2 (op : BitVec 2) (rd : Reg) (k : BitVec 8) :
    (wordT9 op rd k).extractLsb' 12 2 = op := by
  ext i hi
  simp [wordT9, place]
  interval_cases i <;> simp

@[simp] theorem regAt_wordT9_9 (op : BitVec 2) (rd : Reg) (k : BitVec 8) :
    regAt (wordT9 op rd k) 9 = rd := by
  apply regAt_of_extract
  ext i hi
  simp [wordT9, place]
  interval_cases i <;> simp

@[simp] theorem extract_wordT9_0_8 (op : BitVec 2) (rd : Reg) (k : BitVec 8) :
    (wordT9 op rd k).extractLsb' 0 8 = k := by
  ext i hi
  simp [wordT9, place]
  interval_cases i <;> simp

@[simp] theorem extract_wordT10_11_1 (o : BitVec 1) (k : BitVec 8) :
    (wordT10 o k).extractLsb' 11 1 = o := by
  ext i hi
  simp [wordT10, place]
  interval_cases i
  simp

@[simp] theorem extract_wordT10_0_8 (o : BitVec 1) (k : BitVec 8) :
    (wordT10 o k).extractLsb' 0 8 = k := by
  ext i hi
  simp [wordT10, place]
  interval_cases i <;> simp

@[simp] theorem extract_wordT11_9_3 (op : BitVec 3) (op2 : BitVec 2) (rd : Reg) :
    (wordT11 op op2 rd).extractLsb' 9 3 = op := by
  ext i hi
  simp [wordT11, place]
  interval_cases i <;> simp

@[simp] theorem extract_wordT11_5_2 (op : BitVec 3) (op2 : BitVec 2) (rd : Reg) :
    (wordT11 op op2 rd).extractLsb' 5 2 = op2 := by
  ext i hi
  simp [wordT11, place]
  interval_cases i <;> simp

@[simp] theorem regAt_wordT11_0 (op : BitVec 3) (op2 : BitVec 2) (rd : Reg) :
    regAt (wordT11 op op2 rd) 0 = rd := by
  apply regAt_of_extract
  ext i hi
  simp [wordT11, place]
  interval_cases i <;> simp

@[simp] theorem extract_wordT11Reserved_9_3 (op : BitVec 3) (op2 : BitVec 2) (x : BitVec 5) :
    (wordT11Reserved op op2 x).extractLsb' 9 3 = op := by
  ext i hi
  simp [wordT11Reserved, place]
  interval_cases i <;> simp

@[simp] theorem extract_wordT11Reserved_5_2 (op : BitVec 3) (op2 : BitVec 2) (x : BitVec 5) :
    (wordT11Reserved op op2 x).extractLsb' 5 2 = op2 := by
  ext i hi
  simp [wordT11Reserved, place]
  interval_cases i <;> simp

@[simp] theorem extract_wordT11Reserved_0_5 (op : BitVec 3) (op2 : BitVec 2) (x : BitVec 5) :
    (wordT11Reserved op op2 x).extractLsb' 0 5 = x := by
  ext i hi
  simp [wordT11Reserved, place]
  interval_cases i <;> simp

@[simp] theorem extract_wordT12_9_3 (op : BitVec 3) :
    (wordT12 op).extractLsb' 9 3 = op := by
  ext i hi
  simp [wordT12, place]
  interval_cases i <;> simp

@[simp] theorem extract_wordReservedT12_9_3 (x : BitVec 2) (y : BitVec 7) :
    (wordReservedT12 x y).extractLsb' 9 3 = 0b100#3 ||| x.setWidth 3 := by
  ext i hi
  simp [wordReservedT12, place]
  interval_cases i <;> simp

@[simp] theorem extract_wordReservedT12_9_2 (x : BitVec 2) (y : BitVec 7) :
    (wordReservedT12 x y).extractLsb' 9 2 = x := by
  ext i hi
  simp [wordReservedT12, place]
  interval_cases i <;> simp

@[simp] theorem extract_wordReservedT12_0_7 (x : BitVec 2) (y : BitVec 7) :
    (wordReservedT12 x y).extractLsb' 0 7 = y := by
  ext i hi
  simp [wordReservedT12, place]
  interval_cases i <;> simp

@[simp] theorem extract_wordT13_9_3 (op : BitVec 3) (rs rd : Reg) :
    (wordT13 op rs rd).extractLsb' 9 3 = op := by
  ext i hi
  simp [wordT13, place]
  interval_cases i <;> simp

@[simp] theorem regAt_wordT13_3 (op : BitVec 3) (rs rd : Reg) :
    regAt (wordT13 op rs rd) 3 = rs := by
  apply regAt_of_extract
  ext i hi
  simp [wordT13, place]
  interval_cases i <;> simp

@[simp] theorem regAt_wordT13_0 (op : BitVec 3) (rs rd : Reg) :
    regAt (wordT13 op rs rd) 0 = rd := by
  apply regAt_of_extract
  ext i hi
  simp [wordT13, place]
  interval_cases i <;> simp

@[simp] theorem extract_wordReservedT13_9_3 (x : BitVec 7) :
    (wordReservedT13 x).extractLsb' 9 3 = 0b110#3 := by
  ext i hi
  simp [wordReservedT13, place]
  interval_cases i <;> simp

@[simp] theorem extract_wordReservedT13_0_7 (x : BitVec 7) :
    (wordReservedT13 x).extractLsb' 0 7 = x := by
  ext i hi
  simp [wordReservedT13, place]
  interval_cases i <;> simp

/-- A register field as the bits it is encoded in. -/
theorem regAt_bits (w : Word) (lo : Nat) : (regAt w lo).bits = w.extractLsb' lo 3 := by
  rw [regAt, Reg.bits_ofBits]

/-! The leaf an encoded word reaches. -/

theorem decodeFirst_wordT1 (o : BitVec 1) (a : BitVec 12) :
    decodeFirst (wordT1 o a) = .whole (decodeT1 (wordT1 o a)) := by
  apply decodeFirst_T1 <;> simp [wordT1, place]

theorem decodeFirst_wordT2 (cc : BitVec 3) (a : BitVec 9) :
    decodeFirst (wordT2 cc a) = .whole (decodeT2 (wordT2 cc a)) := by
  apply decodeFirst_T2 <;> simp [wordT2, place]

theorem decodeFirst_wordT3 (cc : BitVec 3) (rd : Reg) :
    decodeFirst (wordT3 cc rd) = .whole (decodeT3 (wordT3 cc rd)) := by
  apply decodeFirst_T3 <;> simp [wordT3, place]

theorem decodeFirst_wordT4 (cc : BitVec 3) (rn rs rd : Reg) :
    decodeFirst (wordT4 cc rn rs rd) = .whole (decodeT4 (wordT4 cc rn rs rd)) := by
  apply decodeFirst_T4 <;> simp [wordT4, place]

theorem decodeFirst_wordT5 (op : BitVec 4) (rn rs rd : Reg) :
    decodeFirst (wordT5 op rn rs rd) = .whole (decodeT5 (wordT5 op rn rs rd)) := by
  apply decodeFirst_T5 <;> simp [wordT5, place]

theorem decodeFirst_wordT6 (op : BitVec 2) (rd : Reg) (k : BitVec 6) :
    decodeFirst (wordT6 op rd k) = .whole (decodeT6 (wordT6 op rd k)) := by
  apply decodeFirst_T6 <;> simp [wordT6, place]

theorem decodeFirst_wordT7 (op : BitVec 2) (rd rn : Reg) (k : BitVec 6) :
    decodeFirst (wordT7 op rd rn k) = .whole (decodeT7 (wordT7 op rd rn k)) := by
  apply decodeFirst_T7 <;> simp [wordT7, place]

theorem decodeFirst_wordT8 (op : BitVec 2) (rd : Reg) (k : BitVec 8) :
    decodeFirst (wordT8 op rd k) = .whole (decodeT8 (wordT8 op rd k)) := by
  apply decodeFirst_T8 <;> simp [wordT8, place]

theorem decodeFirst_wordT9 (op : BitVec 2) (rd : Reg) (k : BitVec 8) :
    decodeFirst (wordT9 op rd k) = .whole (decodeT9 (wordT9 op rd k)) := by
  apply decodeFirst_T9 <;> simp [wordT9, place]

theorem decodeFirst_wordT10 (o : BitVec 1) (k : BitVec 8) :
    decodeFirst (wordT10 o k) = .whole (decodeT10 (wordT10 o k)) := by
  apply decodeFirst_T10 <;> simp [wordT10, place]

theorem decodeFirst_wordT11 (op : BitVec 3) (op2 : BitVec 2) (rd : Reg) :
    decodeFirst (wordT11 op op2 rd) = decodeT11 (wordT11 op op2 rd) := by
  apply decodeFirst_T11 <;> simp [wordT11, place]

theorem decodeFirst_wordT12 (op : BitVec 3) :
    decodeFirst (wordT12 op) = .whole (decodeT12 (wordT12 op)) := by
  apply decodeFirst_T12 <;> simp [wordT12, place]

theorem decodeFirst_wordT13 (op : BitVec 3) (rs rd : Reg) :
    decodeFirst (wordT13 op rs rd) = .whole (decodeT13 (wordT13 op rs rd)) := by
  apply decodeFirst_T13 <;> simp [wordT13, place]

theorem decodeFirst_wordT11Reserved (op : BitVec 3) (op2 : BitVec 2) (x : BitVec 5) :
    decodeFirst (wordT11Reserved op op2 x) = decodeT11 (wordT11Reserved op op2 x) := by
  apply decodeFirst_T11 <;> simp [wordT11Reserved, place]

theorem decodeFirst_wordReservedT5 (x : BitVec 9) :
    decodeFirst (wordReservedT5 x) = .whole (decodeT5 (wordReservedT5 x)) := by
  apply decodeFirst_T5 <;> simp [wordReservedT5, place]

theorem decodeFirst_wordReservedT6 (x : BitVec 3) (y : BitVec 7) :
    decodeFirst (wordReservedT6 x y) = .whole (decodeT6 (wordReservedT6 x y)) := by
  apply decodeFirst_T6 <;> simp [wordReservedT6, place]

theorem decodeFirst_wordReservedT12 (x : BitVec 2) (y : BitVec 7) :
    decodeFirst (wordReservedT12 x y) = .whole (decodeT12 (wordReservedT12 x y)) := by
  apply decodeFirst_T12 <;> simp [wordReservedT12, place]

theorem decodeFirst_wordReservedT13 (x : BitVec 7) :
    decodeFirst (wordReservedT13 x) = .whole (decodeT13 (wordReservedT13 x)) := by
  apply decodeFirst_T13 <;> simp [wordReservedT13, place]

/-! The decoder from what the first word decodes to. -/

theorem decode_whole {w : Word} {i : Instr} (h : decodeFirst w = .whole i) (rest : List Word) :
    decode (w :: rest) = .ok (i, rest) := by
  simp only [decode, h]

theorem decode_wide {w : Word} {op : WideOp} {rd : Reg} (h : decodeFirst w = .wide op rd) (w2 : Word)
    (rest : List Word) : decode (w :: w2 :: rest) = .ok (op.instr rd w2, rest) := by
  simp only [decode, h]

theorem decode_wide_short {w : Word} {op : WideOp} {rd : Reg} (h : decodeFirst w = .wide op rd) :
    decode [w] = .error .noSecondWord := by
  simp only [decode, h]

/-- All that a decoding which answers an instruction can have done. -/
theorem decode_eq_ok {w : Word} {i : Instr} {rest rest' : List Word} (h : decode (w :: rest) = .ok (i, rest')) :
    (decodeFirst w = .whole i ∧ rest' = rest) ∨
    ∃ op rd w2, decodeFirst w = .wide op rd ∧ rest = w2 :: rest' ∧ i = op.instr rd w2 := by
  cases hf : decodeFirst w with
  | whole j =>
    rw [decode_whole hf] at h
    cases h
    exact .inl ⟨rfl, rfl⟩
  | wide op rd =>
    cases rest with
    | nil => rw [decode_wide_short hf] at h; cases h
    | cons w2 r =>
      rw [decode_wide hf] at h
      cases h
      exact .inr ⟨op, rd, w2, rfl, rfl, rfl⟩

end Sys2Proof
end

