-- ==== Sys2Proof/Laws/Flags.lean ====
section
/-! SUPPORT. What the one adder and the subtraction do, over exact integers, and what the conditions read. -/

namespace Sys2Proof.Machine

/-! `AddC`. -/

theorem addC_r (a b : Word) (cin : Bool) :
    (addC a b cin).r = BitVec.ofNat 16 (a.toNat + b.toNat + cin.toNat) := by
  apply BitVec.eq_of_toNat_eq
  have := a.isLt
  have := b.isLt
  cases cin <;> simp [addC, BitVec.toNat_add]

theorem addC_c (a b : Word) (cin : Bool) :
    (addC a b cin).c = decide (65536 ≤ a.toNat + b.toNat + cin.toNat) := by
  have := a.isLt
  have := b.isLt
  rw [Bool.eq_iff_iff]
  cases cin <;> simp [addC, BitVec.getLsbD, Nat.testBit_eq_decide_div_mod_eq, BitVec.toNat_add] <;> omega

theorem addC_s (a b : Word) (cin : Bool) : (addC a b cin).s = decide ((addC a b cin).r.toInt < 0) := by
  rw [← BitVec.msb_eq_toInt]
  rfl

theorem addC_z (a b : Word) (cin : Bool) : (addC a b cin).z = decide ((addC a b cin).r = 0) := rfl

/-- V is set exactly when the exact signed sum does not fit 16 bits. -/
theorem addC_v (a b : Word) (cin : Bool) :
    (addC a b cin).v =
      !decide (-32768 ≤ a.toInt + b.toInt + cin.toNat ∧ a.toInt + b.toInt + cin.toNat ≤ 32767) := by
  have hv : (addC a b cin).v =
      (a.getLsbD 15 == b.getLsbD 15 && (addC a b cin).r.getLsbD 15 != a.getLsbD 15) := rfl
  rw [hv, addC_r]
  have := a.isLt
  have := b.isLt
  rw [Bool.eq_iff_iff]
  simp only [BitVec.getLsbD, Nat.testBit_eq_decide_div_mod_eq, BitVec.toNat_ofNat, BitVec.toInt_eq_toNat_cond]
  cases cin <;> simp <;> split_ifs <;> omega

/-! Subtraction as addition of the complement (R39): `addC a (~b) (!borrow)` is `a - b - borrow`. -/

theorem not_toNat (b : Word) : (~~~b).toNat = 65535 - b.toNat := by
  rw [BitVec.toNat_not]

theorem not_toInt (b : Word) : (~~~b).toInt = -1 - b.toInt := by
  have := b.isLt
  rw [BitVec.toInt_eq_toNat_cond, BitVec.toInt_eq_toNat_cond, not_toNat]
  split_ifs <;> omega

theorem addC_not_r (a b : Word) (borrow : Bool) :
    (addC a (~~~b) (!borrow)).r = BitVec.ofInt 16 ((a.toNat : Int) - b.toNat - borrow.toNat) := by
  have := a.isLt
  have := b.isLt
  rw [addC_r, not_toNat]
  apply BitVec.eq_of_toNat_eq
  rw [BitVec.toNat_ofNat, BitVec.toNat_ofInt]
  cases borrow <;> simp <;> omega

theorem addC_not_c (a b : Word) (borrow : Bool) :
    (addC a (~~~b) (!borrow)).c = decide (b.toNat + borrow.toNat ≤ a.toNat) := by
  have := b.isLt
  rw [addC_c, not_toNat, Bool.eq_iff_iff]
  cases borrow <;> simp <;> omega

theorem addC_not_v (a b : Word) (borrow : Bool) :
    (addC a (~~~b) (!borrow)).v =
      !decide (-32768 ≤ a.toInt - b.toInt - borrow.toNat ∧ a.toInt - b.toInt - borrow.toNat ≤ 32767) := by
  rw [addC_v, not_toInt, Bool.eq_iff_iff]
  cases borrow <;> simp <;> omega

theorem subC_eq (a b : Word) : subC a b = addC a (~~~b) (!false) := rfl

end Sys2Proof.Machine
end

