-- ==== Sys2Proof/Laws/Launch.lean ====
section
/-! SUPPORT. What a launch leaves (spec 70_reset_and_hazards.md R261): in each register and flag the last preset of it
or what reset leaves, and what of it is written. -/

namespace Sys2Proof.Machine

/-- The last value that a list of presets gives a place, if any does. -/
def lastPreset {α β : Type} [DecidableEq α] (l : List (α × β)) (a : α) : Option β :=
  l.foldl (fun o p => if a = p.1 then some p.2 else o) none

/-- Presets made one after the other leave the last one of each place, where setting a place changes it alone. -/
theorem foldl_presets {α β σ : Type} [DecidableEq α] (set : σ → α → β → σ) (get : σ → α → β)
    (h : ∀ s a b c, get (set s a b) c = if c = a then b else get s c) (l : List (α × β)) (s : σ) (a : α) :
    get (l.foldl (fun t p => set t p.1 p.2) s) a = (lastPreset l a).getD (get s a) := by
  induction l using List.reverseRecOn with
  | nil => rfl
  | append_singleton l p ih =>
    rw [lastPreset] at ih ⊢
    simp only [List.foldl_append, List.foldl_cons, List.foldl_nil, h, ih]
    split <;> rfl

/-- A register after a launch: its last preset, or what reset leaves. -/
theorem Launch.start_reg (l : Launch) (r : Reg) :
    l.start.reg r = (lastPreset l.presetRegs r).getD (State.reset.reg r) :=
  foldl_presets RegFile.set RegFile.get (fun f r v q => RegFile.get_set f r q v) _ _ _

/-- A flag after a launch: its last preset, or what reset leaves. -/
theorem Launch.start_flag (l : Launch) (f : Flag) :
    l.start.sar.get f = (lastPreset l.presetFlags f).getD (State.reset.sar.get f) :=
  foldl_presets Sar.set Sar.get (fun x g b h => Sar.get_set x g h b) _ _ _

@[simp] theorem Launch.start_sp (l : Launch) : l.start.sp = l.presetSp.getD State.reset.sp := rfl
@[simp] theorem Launch.start_pc (l : Launch) : l.start.pc = l.presetPc.getD State.reset.pc := rfl
@[simp] theorem Launch.start_draws (l : Launch) : l.start.draws = 0 := rfl

/-- Exactly I and the presets are written after a launch. -/
theorem Launch.mem_written (l : Launch) (p : Place) :
    p ∈ l.written ↔ p = .flag .i ∨ (∃ q ∈ l.presetRegs, p = .reg q.1) ∨ (p = .sp ∧ l.presetSp.isSome) ∨
      ∃ q ∈ l.presetFlags, p = .flag q.1 := by
  cases h : l.presetSp <;> simp [Launch.written, Tracked.reset, h, eq_comm] <;> exact or_comm

/-- A launcher that supplies and presets nothing gives the pure reset state. -/
theorem Launch.tracked_nothing (endPc : Word) :
    Launch.tracked { program := [], dataImage := [], presetRegs := [], presetSp := none, presetPc := none,
                     presetFlags := [], endPc := endPc } = Tracked.reset := rfl

end Sys2Proof.Machine
end

