-- ==== Sys2Proof/Laws/Operands.lean ====
section
/-! SUPPORT. What each operand form computes under the default parameters, as exact arithmetic narrowed at the end. -/

namespace Sys2Proof.Machine

theorem zext16_eq {n : Nat} (k : BitVec n) : zext16 k = BitVec.ofNat 16 k.toNat := by
  apply BitVec.eq_of_toNat_eq
  simp [zext16]

theorem zext16_toNat {n : Nat} (h : n ≤ 16) (k : BitVec n) : (zext16 k).toNat = k.toNat := by
  rw [zext16, BitVec.toNat_setWidth]
  exact Nat.mod_eq_of_lt (lt_of_lt_of_le k.isLt (Nat.pow_le_pow_right (by decide) h))

theorem sext16_eq {n : Nat} (k : BitVec n) : sext16 k = BitVec.ofInt 16 k.toInt := rfl

/-- A relative target is pc, one word and the signed offset (R105). -/
theorem relTarget_eq {n : Nat} (s : State) (a : BitVec n) :
    relTarget s a = BitVec.ofInt 16 ((s.pc.toNat : Int) + 1 + a.toInt) := by
  rw [BitVec.ofInt_add, BitVec.ofInt_add]
  simp [relTarget, cfg, sext16, BitVec.signExtend, pcPlus, unitsPerWord]

/-- The address of a T7 load or store is Rn and the field less 16 (R104). -/
theorem eaOffset_eq (s : State) (rn : Reg) (k : BitVec 6) :
    eaOffset s rn k = BitVec.ofInt 16 (((s.reg rn).toNat : Int) + (k.toNat - 16)) := by
  have e : BitVec.ofInt 16 ((k.toNat : Int) - 16) = zext16 k - 16 := by
    rw [zext16_eq, sub_eq_add_neg, BitVec.ofInt_add, BitVec.ofInt_natCast, sub_eq_add_neg]
    congr 1
  rw [BitVec.ofInt_add, e]
  simp [eaOffset, disp6, cfg]

end Sys2Proof.Machine
end

