-- ==== Sys2Proof/Laws/PerInstr.lean ====
section
/-! SUPPORT. Families of statements made once per instruction: `EncodeLength`, an instruction is encoded in as many
words as it occupies (spec 10_state.md R24, 30_encoding.md R80). -/

namespace Sys2Proof.Laws

/-- The encoder answers as many words as the instruction occupies. -/
def EncodeLength.Statement (i : Instr) : Prop := (encode i).length = i.words

theorem EncodeLength.jmprel (a : BitVec 12) : EncodeLength.Statement (.jmprel a) := rfl
theorem EncodeLength.callrel (a : BitVec 12) : EncodeLength.Statement (.callrel a) := rfl
theorem EncodeLength.breq (a : BitVec 9) : EncodeLength.Statement (.breq a) := rfl
theorem EncodeLength.brne (a : BitVec 9) : EncodeLength.Statement (.brne a) := rfl
theorem EncodeLength.bruge (a : BitVec 9) : EncodeLength.Statement (.bruge a) := rfl
theorem EncodeLength.brult (a : BitVec 9) : EncodeLength.Statement (.brult a) := rfl
theorem EncodeLength.brlt (a : BitVec 9) : EncodeLength.Statement (.brlt a) := rfl
theorem EncodeLength.brge (a : BitVec 9) : EncodeLength.Statement (.brge a) := rfl
theorem EncodeLength.brugt (a : BitVec 9) : EncodeLength.Statement (.brugt a) := rfl
theorem EncodeLength.brgt (a : BitVec 9) : EncodeLength.Statement (.brgt a) := rfl
theorem EncodeLength.seteq (rd : Reg) : EncodeLength.Statement (.seteq rd) := rfl
theorem EncodeLength.setne (rd : Reg) : EncodeLength.Statement (.setne rd) := rfl
theorem EncodeLength.setuge (rd : Reg) : EncodeLength.Statement (.setuge rd) := rfl
theorem EncodeLength.setult (rd : Reg) : EncodeLength.Statement (.setult rd) := rfl
theorem EncodeLength.setlt (rd : Reg) : EncodeLength.Statement (.setlt rd) := rfl
theorem EncodeLength.setge (rd : Reg) : EncodeLength.Statement (.setge rd) := rfl
theorem EncodeLength.setugt (rd : Reg) : EncodeLength.Statement (.setugt rd) := rfl
theorem EncodeLength.setgt (rd : Reg) : EncodeLength.Statement (.setgt rd) := rfl
theorem EncodeLength.seleq (rn rs rd : Reg) : EncodeLength.Statement (.seleq rn rs rd) := rfl
theorem EncodeLength.selne (rn rs rd : Reg) : EncodeLength.Statement (.selne rn rs rd) := rfl
theorem EncodeLength.seluge (rn rs rd : Reg) : EncodeLength.Statement (.seluge rn rs rd) := rfl
theorem EncodeLength.selult (rn rs rd : Reg) : EncodeLength.Statement (.selult rn rs rd) := rfl
theorem EncodeLength.sellt (rn rs rd : Reg) : EncodeLength.Statement (.sellt rn rs rd) := rfl
theorem EncodeLength.selge (rn rs rd : Reg) : EncodeLength.Statement (.selge rn rs rd) := rfl
theorem EncodeLength.selugt (rn rs rd : Reg) : EncodeLength.Statement (.selugt rn rs rd) := rfl
theorem EncodeLength.selgt (rn rs rd : Reg) : EncodeLength.Statement (.selgt rn rs rd) := rfl
theorem EncodeLength.addrrr (rn rs rd : Reg) : EncodeLength.Statement (.addrrr rn rs rd) := rfl
theorem EncodeLength.adcrrr (rn rs rd : Reg) : EncodeLength.Statement (.adcrrr rn rs rd) := rfl
theorem EncodeLength.subrrr (rn rs rd : Reg) : EncodeLength.Statement (.subrrr rn rs rd) := rfl
theorem EncodeLength.subcrrr (rn rs rd : Reg) : EncodeLength.Statement (.subcrrr rn rs rd) := rfl
theorem EncodeLength.orrrr (rn rs rd : Reg) : EncodeLength.Statement (.orrrr rn rs rd) := rfl
theorem EncodeLength.andrrr (rn rs rd : Reg) : EncodeLength.Statement (.andrrr rn rs rd) := rfl
theorem EncodeLength.xorrrr (rn rs rd : Reg) : EncodeLength.Statement (.xorrrr rn rs rd) := rfl
theorem EncodeLength.reservedT5_0111 (x : BitVec 9) : EncodeLength.Statement (.reservedT5_0111 x) := rfl
theorem EncodeLength.mov16nr (rn rs rd : Reg) : EncodeLength.Statement (.mov16nr rn rs rd) := rfl
theorem EncodeLength.mov8znr (rn rs rd : Reg) : EncodeLength.Statement (.mov8znr rn rs rd) := rfl
theorem EncodeLength.mov8snr (rn rs rd : Reg) : EncodeLength.Statement (.mov8snr rn rs rd) := rfl
theorem EncodeLength.mov16rn (rn rs rd : Reg) : EncodeLength.Statement (.mov16rn rn rs rd) := rfl
theorem EncodeLength.mov8rn (rn rs rd : Reg) : EncodeLength.Statement (.mov8rn rn rs rd) := rfl
theorem EncodeLength.andkr (rd : Reg) (k : BitVec 6) : EncodeLength.Statement (.andkr rd k) := rfl
theorem EncodeLength.orkr (rd : Reg) (k : BitVec 6) : EncodeLength.Statement (.orkr rd k) := rfl
theorem EncodeLength.reservedT6_1x (x : BitVec 3) (y : BitVec 7) : EncodeLength.Statement (.reservedT6_1x x y) := rfl
theorem EncodeLength.mov16mr (rd rn : Reg) (k : BitVec 6) : EncodeLength.Statement (.mov16mr rd rn k) := rfl
theorem EncodeLength.movs8mr (rd rn : Reg) (k : BitVec 6) : EncodeLength.Statement (.movs8mr rd rn k) := rfl
theorem EncodeLength.mov16rm (rd rn : Reg) (k : BitVec 6) : EncodeLength.Statement (.mov16rm rd rn k) := rfl
theorem EncodeLength.mov8rm (rd rn : Reg) (k : BitVec 6) : EncodeLength.Statement (.mov8rm rd rn k) := rfl
theorem EncodeLength.movkr (rd : Reg) (k : BitVec 8) : EncodeLength.Statement (.movkr rd k) := rfl
theorem EncodeLength.cmpkr (rd : Reg) (k : BitVec 8) : EncodeLength.Statement (.cmpkr rd k) := rfl
theorem EncodeLength.addkr (rd : Reg) (k : BitVec 8) : EncodeLength.Statement (.addkr rd k) := rfl
theorem EncodeLength.subkr (rd : Reg) (k : BitVec 8) : EncodeLength.Statement (.subkr rd k) := rfl
theorem EncodeLength.mov16qr (rd : Reg) (k : BitVec 8) : EncodeLength.Statement (.mov16qr rd k) := rfl
theorem EncodeLength.movs8qr (rd : Reg) (k : BitVec 8) : EncodeLength.Statement (.movs8qr rd k) := rfl
theorem EncodeLength.mov16rq (rd : Reg) (k : BitVec 8) : EncodeLength.Statement (.mov16rq rd k) := rfl
theorem EncodeLength.mov8rq (rd : Reg) (k : BitVec 8) : EncodeLength.Statement (.mov8rq rd k) := rfl
theorem EncodeLength.addks (k : BitVec 8) : EncodeLength.Statement (.addks k) := rfl
theorem EncodeLength.subks (k : BitVec 8) : EncodeLength.Statement (.subks k) := rfl
theorem EncodeLength.push (rd : Reg) : EncodeLength.Statement (.push rd) := rfl
theorem EncodeLength.pop (rd : Reg) : EncodeLength.Statement (.pop rd) := rfl
theorem EncodeLength.movsr (rd : Reg) : EncodeLength.Statement (.movsr rd) := rfl
theorem EncodeLength.movrs (rd : Reg) : EncodeLength.Statement (.movrs rd) := rfl
theorem EncodeLength.addrs (rd : Reg) : EncodeLength.Statement (.addrs rd) := rfl
theorem EncodeLength.subrs (rd : Reg) : EncodeLength.Statement (.subrs rd) := rfl
theorem EncodeLength.addsr (rd : Reg) : EncodeLength.Statement (.addsr rd) := rfl
theorem EncodeLength.subsr (rd : Reg) : EncodeLength.Statement (.subsr rd) := rfl
theorem EncodeLength.jmpreg (rd : Reg) : EncodeLength.Statement (.jmpreg rd) := rfl
theorem EncodeLength.callreg (rd : Reg) : EncodeLength.Statement (.callreg rd) := rfl
theorem EncodeLength.reservedT11_010_01 (x : BitVec 5) : EncodeLength.Statement (.reservedT11_010_01 x) := rfl
theorem EncodeLength.reservedT11_011_01 (x : BitVec 5) : EncodeLength.Statement (.reservedT11_011_01 x) := rfl
theorem EncodeLength.reservedT11_100_01 (x : BitVec 5) : EncodeLength.Statement (.reservedT11_100_01 x) := rfl
theorem EncodeLength.reservedT11_101_01 (x : BitVec 5) : EncodeLength.Statement (.reservedT11_101_01 x) := rfl
theorem EncodeLength.reservedT11_110_01 (x : BitVec 5) : EncodeLength.Statement (.reservedT11_110_01 x) := rfl
theorem EncodeLength.movSr (rd : Reg) : EncodeLength.Statement (.movSr rd) := rfl
theorem EncodeLength.lsr (rd : Reg) : EncodeLength.Statement (.lsr rd) := rfl
theorem EncodeLength.lsl (rd : Reg) : EncodeLength.Statement (.lsl rd) := rfl
theorem EncodeLength.asr (rd : Reg) : EncodeLength.Statement (.asr rd) := rfl
theorem EncodeLength.reservedT11_011_10 (x : BitVec 5) : EncodeLength.Statement (.reservedT11_011_10 x) := rfl
theorem EncodeLength.reservedT11_100_10 (x : BitVec 5) : EncodeLength.Statement (.reservedT11_100_10 x) := rfl
theorem EncodeLength.neg (rd : Reg) : EncodeLength.Statement (.neg rd) := rfl
theorem EncodeLength.not (rd : Reg) : EncodeLength.Statement (.not rd) := rfl
theorem EncodeLength.reservedT11_111_10 (x : BitVec 5) : EncodeLength.Statement (.reservedT11_111_10 x) := rfl
theorem EncodeLength.movKr (rd : Reg) (k : Word) : EncodeLength.Statement (.movKr rd k) := rfl
theorem EncodeLength.mov16ar (rd : Reg) (a : Word) : EncodeLength.Statement (.mov16ar rd a) := rfl
theorem EncodeLength.mov8zar (rd : Reg) (a : Word) : EncodeLength.Statement (.mov8zar rd a) := rfl
theorem EncodeLength.mov8sar (rd : Reg) (a : Word) : EncodeLength.Statement (.mov8sar rd a) := rfl
theorem EncodeLength.mov16ra (rd : Reg) (a : Word) : EncodeLength.Statement (.mov16ra rd a) := rfl
theorem EncodeLength.mov8ra (rd : Reg) (a : Word) : EncodeLength.Statement (.mov8ra rd a) := rfl
theorem EncodeLength.reservedT11_110_11 (x : BitVec 5) : EncodeLength.Statement (.reservedT11_110_11 x) := rfl
theorem EncodeLength.reservedT11_111_11 (x : BitVec 5) : EncodeLength.Statement (.reservedT11_111_11 x) := rfl
theorem EncodeLength.ret : EncodeLength.Statement (.ret) := rfl
theorem EncodeLength.reti : EncodeLength.Statement (.reti) := rfl
theorem EncodeLength.dint : EncodeLength.Statement (.dint) := rfl
theorem EncodeLength.eint : EncodeLength.Statement (.eint) := rfl
theorem EncodeLength.reservedT12_1xx (x : BitVec 2) (y : BitVec 7) : EncodeLength.Statement (.reservedT12_1xx x y) := rfl
theorem EncodeLength.movrr (rs rd : Reg) : EncodeLength.Statement (.movrr rs rd) := rfl
theorem EncodeLength.cmprr (rs rd : Reg) : EncodeLength.Statement (.cmprr rs rd) := rfl
theorem EncodeLength.zext (rs rd : Reg) : EncodeLength.Statement (.zext rs rd) := rfl
theorem EncodeLength.sext (rs rd : Reg) : EncodeLength.Statement (.sext rs rd) := rfl
theorem EncodeLength.bswap (rs rd : Reg) : EncodeLength.Statement (.bswap rs rd) := rfl
theorem EncodeLength.sextw (rs rd : Reg) : EncodeLength.Statement (.sextw rs rd) := rfl
theorem EncodeLength.reservedT13_110 (x : BitVec 7) : EncodeLength.Statement (.reservedT13_110 x) := rfl
theorem EncodeLength.mov16pr (rs rd : Reg) : EncodeLength.Statement (.mov16pr rs rd) := rfl

end Sys2Proof.Laws
end

