-- ==== Sys2Proof/Tests/Slice0.lean ====
section
/-! SUPPORT. Our own tests: ill-formed terms refused, every constructor's decoding from a word written out by hand from
the spec's encoding tables, single steps with the values of spec 95_test_vectors.md part 2, and for each statement with
hypotheses a concrete state and operands that meet them. -/

open Sys2Proof Sys2Proof.Machine Sys2Proof.Claims

namespace Sys2Proof.Tests

/-! WellFormed: the one check, a reserved block, refuses each of the 14 (30_encoding.md R101). -/

theorem test_ill_formed_reservedT5_0111 : (Instr.reservedT5_0111 0).wellFormed = false := by decide
theorem test_ill_formed_reservedT6_1x : (Instr.reservedT6_1x 2 5).wellFormed = false := by decide
theorem test_ill_formed_reservedT11_010_01 : (Instr.reservedT11_010_01 1).wellFormed = false := by decide
theorem test_ill_formed_reservedT11_011_01 : (Instr.reservedT11_011_01 2).wellFormed = false := by decide
theorem test_ill_formed_reservedT11_100_01 : (Instr.reservedT11_100_01 3).wellFormed = false := by decide
theorem test_ill_formed_reservedT11_101_01 : (Instr.reservedT11_101_01 4).wellFormed = false := by decide
theorem test_ill_formed_reservedT11_110_01 : (Instr.reservedT11_110_01 31).wellFormed = false := by decide
theorem test_ill_formed_reservedT11_011_10 : (Instr.reservedT11_011_10 0).wellFormed = false := by decide
theorem test_ill_formed_reservedT11_100_10 : (Instr.reservedT11_100_10 0).wellFormed = false := by decide
theorem test_ill_formed_reservedT11_111_10 : (Instr.reservedT11_111_10 0).wellFormed = false := by decide
theorem test_ill_formed_reservedT11_110_11 : (Instr.reservedT11_110_11 0).wellFormed = false := by decide
theorem test_ill_formed_reservedT11_111_11 : (Instr.reservedT11_111_11 16).wellFormed = false := by decide
theorem test_ill_formed_reservedT12_1xx : (Instr.reservedT12_1xx 0 0).wellFormed = false := by decide
theorem test_ill_formed_reservedT13_110 : (Instr.reservedT13_110 10).wellFormed = false := by decide

theorem test_well_formed_nop : (Instr.movrr .r0 .r0).wellFormed = true := by decide

/-! Decoding, from words written out bit by bit, unused bits at either value (30_encoding.md R83 to R101,
95_test_vectors.md section 2.1). -/

/-- The words are the encoding of the instruction, nothing left over. -/
def decodesTo (ws : List Word) (i : Instr) : Bool :=
  match decode ws with
  | .ok (j, rest) => decide (j = i) && rest.isEmpty
  | .error _ => false

theorem test_decode_T1 :
    decodesTo [0b1110000000000101#16] (.jmprel 5) ∧
    decodesTo [0b1111111111111101#16] (.callrel 0xFFD) := by decide

theorem test_decode_T2 :
    decodesTo [0b1101000000000011#16] (.breq 3) ∧
    decodesTo [0b1101001111111100#16] (.brne 0x1FC) ∧
    decodesTo [0b1101010000000001#16] (.bruge 1) ∧
    decodesTo [0b1101011100000000#16] (.brult 0x100) ∧
    decodesTo [0b1101100011111111#16] (.brlt 0x0FF) ∧
    decodesTo [0b1101101000000000#16] (.brge 0) ∧
    decodesTo [0b1101110111111111#16] (.brugt 0x1FF) ∧
    decodesTo [0b1101111111111110#16] (.brgt 0x1FE) := by decide

theorem test_decode_T3 :
    decodesTo [0b0000000110000000#16] (.seteq .r0) ∧
    decodesTo [0b0000001110000001#16] (.setne .r1) ∧
    decodesTo [0b0000010110000010#16] (.setuge .r2) ∧
    decodesTo [0b0000011111111101#16] (.setult .r5) ∧
    decodesTo [0b0000100110000011#16] (.setlt .r3) ∧
    decodesTo [0b0000101110001100#16] (.setge .r4) ∧
    decodesTo [0b0000110111000110#16] (.setugt .r6) ∧
    decodesTo [0b0000111110000111#16] (.setgt .r7) := by decide

theorem test_decode_T4 :
    decodesTo [0b0001000000001010#16] (.seleq .r0 .r1 .r2) ∧
    decodesTo [0b0001001011100101#16] (.selne .r3 .r4 .r5) ∧
    decodesTo [0b0001010110111000#16] (.seluge .r6 .r7 .r0) ∧
    decodesTo [0b0001011001010011#16] (.selult .r1 .r2 .r3) ∧
    decodesTo [0b0001100100101110#16] (.sellt .r4 .r5 .r6) ∧
    decodesTo [0b0001101001010011#16] (.selge .r1 .r2 .r3) ∧
    decodesTo [0b0001110111000001#16] (.selugt .r7 .r0 .r1) ∧
    decodesTo [0b0001111010011100#16] (.selgt .r2 .r3 .r4) := by decide

theorem test_decode_T5 :
    decodesTo [0b0010000001010011#16] (.addrrr .r1 .r2 .r3) ∧
    decodesTo [0b0010001001010011#16] (.adcrrr .r1 .r2 .r3) ∧
    decodesTo [0b0010010001010011#16] (.subrrr .r1 .r2 .r3) ∧
    decodesTo [0b0010011100101110#16] (.subcrrr .r4 .r5 .r6) ∧
    decodesTo [0b0010100000111001#16] (.orrrr .r0 .r7 .r1) ∧
    decodesTo [0b0010101001010011#16] (.andrrr .r1 .r2 .r3) ∧
    decodesTo [0b0010110111110101#16] (.xorrrr .r7 .r6 .r5) ∧
    decodesTo [0b0011000001010011#16] (.mov16nr .r1 .r2 .r3) ∧
    decodesTo [0b0011001001010011#16] (.mov16nr .r1 .r2 .r3) ∧
    decodesTo [0b0011010001010011#16] (.mov8znr .r1 .r2 .r3) ∧
    decodesTo [0b0011011001010011#16] (.mov8snr .r1 .r2 .r3) ∧
    decodesTo [0b0011100001010011#16] (.mov16rn .r1 .r2 .r3) ∧
    decodesTo [0b0011101001010011#16] (.mov16rn .r1 .r2 .r3) ∧
    decodesTo [0b0011110001010011#16] (.mov8rn .r1 .r2 .r3) ∧
    decodesTo [0b0011111001010011#16] (.mov8rn .r1 .r2 .r3) := by decide

theorem test_decode_T6_T7 :
    decodesTo [0b1100010100111111#16] (.andkr .r2 0x3F) ∧
    decodesTo [0b1100111101000001#16] (.orkr .r7 1) ∧
    decodesTo [0b1000010001010100#16] (.mov16mr .r2 .r1 20) ∧
    decodesTo [0b1001011100000000#16] (.movs8mr .r3 .r4 0) ∧
    decodesTo [0b1010101110111111#16] (.mov16rm .r5 .r6 63) ∧
    decodesTo [0b1011010001000000#16] (.mov8rm .r2 .r1 0) := by decide

theorem test_decode_T8_T9 :
    decodesTo [0b0100000111111111#16] (.movkr .r0 0xFF) ∧
    decodesTo [0b0101011100001010#16] (.cmpkr .r3 0x0A) ∧
    decodesTo [0b0110001111111111#16] (.addkr .r1 0xFF) ∧
    decodesTo [0b0111001100000001#16] (.subkr .r1 1) ∧
    decodesTo [0b0100100000000010#16] (.mov16qr .r4 2) ∧
    decodesTo [0b0101101010000000#16] (.movs8qr .r5 0x80) ∧
    decodesTo [0b0110110000000001#16] (.mov16rq .r6 1) ∧
    decodesTo [0b0111100011111111#16] (.mov8rq .r4 0xFF) := by decide

theorem test_decode_T10 :
    decodesTo [0b1100000000001000#16] (.addks 8) ∧
    decodesTo [0b1100011000001000#16] (.addks 8) ∧
    decodesTo [0b1100100000001000#16] (.subks 8) := by decide

theorem test_decode_T11_op2_00 :
    decodesTo [0b0000000100000001#16] (.push .r1) ∧
    decodesTo [0b0000001100011001#16] (.pop .r1) ∧
    decodesTo [0b0000010100000010#16] (.movsr .r2) ∧
    decodesTo [0b0000011100000010#16] (.movrs .r2) ∧
    decodesTo [0b0000100100000011#16] (.addrs .r3) ∧
    decodesTo [0b0000101100000100#16] (.subrs .r4) ∧
    decodesTo [0b0000110100000101#16] (.addsr .r5) ∧
    decodesTo [0b0000111100000110#16] (.subsr .r6) := by decide

theorem test_decode_T11_op2_01_10 :
    decodesTo [0b0000000100100011#16] (.jmpreg .r3) ∧
    decodesTo [0b0000001100110011#16] (.callreg .r3) ∧
    decodesTo [0b0000111100100000#16] (.movSr .r0) ∧
    decodesTo [0b0000000101000001#16] (.lsr .r1) ∧
    decodesTo [0b0000001101000001#16] (.lsl .r1) ∧
    decodesTo [0b0000010101001001#16] (.asr .r1) ∧
    decodesTo [0b0000101101000111#16] (.neg .r7) ∧
    decodesTo [0b0000110101000001#16] (.not .r1) := by decide

theorem test_decode_T12_T13 :
    decodesTo [0b0000000011111111#16] .ret ∧
    decodesTo [0b0000001010000000#16] .reti ∧
    decodesTo [0b0000010010000000#16] .dint ∧
    decodesTo [0b0000011010000000#16] .eint ∧
    decodesTo [0b0000000000000000#16] (.movrr .r0 .r0) ∧
    decodesTo [0b0000001001001010#16] (.cmprr .r1 .r2) ∧
    decodesTo [0b0000010000001010#16] (.zext .r1 .r2) ∧
    decodesTo [0b0000011000001010#16] (.sext .r1 .r2) ∧
    decodesTo [0b0000100000111000#16] (.bswap .r7 .r0) ∧
    decodesTo [0b0000101000001010#16] (.sextw .r1 .r2) ∧
    decodesTo [0b0000111000001010#16] (.mov16pr .r1 .r2) := by decide

theorem test_decode_T11_two_words :
    decodesTo [0b0000000101100101#16, 0xBEEF#16] (.movKr .r5 0xBEEF) ∧
    decodesTo [0b0000001101100101#16, 0xBEEF#16] (.mov16ar .r5 0xBEEF) ∧
    decodesTo [0b0000010101111101#16, 0xBEEF#16] (.mov8zar .r5 0xBEEF) ∧
    decodesTo [0b0000011101100101#16, 0xBEEF#16] (.mov8sar .r5 0xBEEF) ∧
    decodesTo [0b0000100101100101#16, 0xBEEF#16] (.mov16ra .r5 0xBEEF) ∧
    decodesTo [0b0000101101100101#16, 0xBEEF#16] (.mov8ra .r5 0xBEEF) := by decide

theorem test_decode_reserved :
    decodesTo [0b0010111000000000#16] (.reservedT5_0111 0) ∧
    decodesTo [0b1100010110000101#16] (.reservedT6_1x 2 5) ∧
    decodesTo [0b1100000111000000#16] (.reservedT6_1x 0 64) ∧
    decodesTo [0b0000010100100001#16] (.reservedT11_010_01 1) ∧
    decodesTo [0b0000011100100010#16] (.reservedT11_011_01 2) ∧
    decodesTo [0b0000100100100011#16] (.reservedT11_100_01 3) ∧
    decodesTo [0b0000101100100100#16] (.reservedT11_101_01 4) ∧
    decodesTo [0b0000110100111111#16] (.reservedT11_110_01 31) ∧
    decodesTo [0b0000011101000000#16] (.reservedT11_011_10 0) ∧
    decodesTo [0b0000100101000000#16] (.reservedT11_100_10 0) ∧
    decodesTo [0b0000111101000000#16] (.reservedT11_111_10 0) ∧
    decodesTo [0b0000110101100000#16] (.reservedT11_110_11 0) ∧
    decodesTo [0b0000111101110000#16] (.reservedT11_111_11 16) ∧
    decodesTo [0b0000100010000000#16] (.reservedT12_1xx 0 0) ∧
    decodesTo [0b0000111010000001#16] (.reservedT12_1xx 3 1) ∧
    decodesTo [0b0000110000001010#16] (.reservedT13_110 10) := by decide

/-- A two-word form alone is refused by name, as is nothing at all. -/
theorem test_decode_refuses :
    decode [0b0000000101100101#16] = .error .noSecondWord ∧ decode [] = .error .noFirstWord := ⟨rfl, rfl⟩

/-- The host's numbering: the second word is bits 31 to 16, and 0 where the table gives it no bits. -/
theorem test_table_words :
    decodeTableWord 16 0x0165 = some (.movKr .r5 0) ∧ decodeTableWord 32 0xBEEF0165 = some (.movKr .r5 0xBEEF) := by
  decide

/-- `withFetchWord` places the word where the first step after reset fetches it. -/
theorem test_with_fetch_word :
    (match step (State.reset.withFetchWord 16 0x437F) with
      | .next t => some (t.reg .r1, t.pc)
      | _ => none) = some (0x007F, 0x0001) := by decide

/-! Single steps. Expected values are those of 95_test_vectors.md, sections 2.2 to 2.12. -/

/-- A small state: pc = 0x0010, SP = 0x0100, three registers and data bytes given, all else as at reset. -/
def start (r1 r2 r3 : Word) (data : Memory := []) : State :=
  { State.reset with
    regs := { State.reset.regs with r1 := r1, r2 := r2, r3 := r3 }, sp := 0x0100#16, pc := 0x0010#16, data := data }

/-- One step with the words loaded at pc. -/
def stepOn (s : State) (ws : List Word) : Host.Outcome State Fault Refusal :=
  step (s.setProg (loadProgram s.prog s.pc ws))

/-- Something of the next state, if the step has one. -/
def after {α : Type} (s : State) (ws : List Word) (f : State → α) : Option α :=
  match stepOn s ws with
  | .next t => some (f t)
  | _ => none

/-- The fault of the step, if it faults. -/
def faultOf (s : State) (ws : List Word) : Option Fault :=
  match stepOn s ws with
  | .fault f => some f
  | _ => none

/-- V, S, C, Z, AC, AZ as in the spec's tables. -/
def flags (s : State) : List Bool := [s.sar.v, s.sar.s, s.sar.c, s.sar.z, s.sar.ac, s.sar.az]

/-- S and Z: the two flags a logic instruction defines. -/
def flagsSZ (s : State) : List Bool := [s.sar.s, s.sar.z]

/-- A state with V, S, C, Z given. -/
def withFlags (v sg c z : Bool) : State :=
  let s := start 0x1111 0x2222 0
  { s with sar := { s.sar with v := v, s := sg, c := c, z := z } }

/-! T1 to T4. -/

theorem test_jmprel_back : after (start 0 0 0) [0xEFFF] (·.pc) = some 0x0010 := by decide

theorem test_jmprel_wraps : after ({ start 0 0 0 with pc := 0xFFFF }) [0xE000] (·.pc) = some 0x0000 := by decide

theorem test_callrel_pushes :
    after ({ start 0 0 0 with pc := 0x0020 }) [0xFFFD] (fun t => (t.pc, t.sp, t.data)) =
      some (0x001E, 0x00FE, [(0x00FE, 0x21), (0x00FF, 0x00)]) := by decide

theorem test_callrel_wraps :
    after ({ start 0 0 0 with pc := 0x0020, sp := 0x0000 }) [0xF000] (fun t => (t.sp, t.data)) =
      some (0xFFFE, [(0xFFFE, 0x21), (0xFFFF, 0x00)]) := by decide

theorem test_breq :
    after (withFlags false false true true) [0xD005] (·.pc) = some 0x0016 ∧
    after (withFlags true false true false) [0xD005] (·.pc) = some 0x0011 := by decide

theorem test_brne :
    after (withFlags true false true false) [0xD205] (·.pc) = some 0x0016 ∧
    after (withFlags false false true true) [0xD205] (·.pc) = some 0x0011 := by decide

theorem test_bruge :
    after (withFlags true false true false) [0xD405] (·.pc) = some 0x0016 ∧
    after (withFlags true true false false) [0xD405] (·.pc) = some 0x0011 := by decide

theorem test_brult :
    after (withFlags true true false false) [0xD605] (·.pc) = some 0x0016 ∧
    after (withFlags true false true false) [0xD605] (·.pc) = some 0x0011 := by decide

theorem test_brlt :
    after (withFlags true false true false) [0xD805] (·.pc) = some 0x0016 ∧
    after (withFlags true true false false) [0xD805] (·.pc) = some 0x0011 := by decide

theorem test_brge :
    after (withFlags true true false false) [0xDA05] (·.pc) = some 0x0016 ∧
    after (withFlags true false true false) [0xDA05] (·.pc) = some 0x0011 := by decide

theorem test_brugt :
    after (withFlags true false true false) [0xDC05] (·.pc) = some 0x0016 ∧
    after (withFlags true true false false) [0xDC05] (·.pc) = some 0x0011 := by decide

theorem test_brgt :
    after (withFlags true true false false) [0xDE05] (·.pc) = some 0x0016 ∧
    after (withFlags true false true false) [0xDE05] (·.pc) = some 0x0011 := by decide

theorem test_seteq :
    after (withFlags false false true true) [0x0183] (·.reg .r3) = some 1 ∧
    after (withFlags false true false false) [0x0183] (·.reg .r3) = some 0 := by decide

theorem test_setne :
    after (withFlags false true false false) [0x0383] (·.reg .r3) = some 1 ∧
    after (withFlags false false true true) [0x0383] (·.reg .r3) = some 0 := by decide

theorem test_setuge :
    after (withFlags false false true true) [0x0583] (·.reg .r3) = some 1 ∧
    after (withFlags false true false false) [0x0583] (·.reg .r3) = some 0 := by decide

theorem test_setult :
    after (withFlags false true false false) [0x0783] (·.reg .r3) = some 1 ∧
    after (withFlags false false true true) [0x0783] (·.reg .r3) = some 0 := by decide

theorem test_setlt :
    after (withFlags false true false false) [0x0983] (·.reg .r3) = some 1 ∧
    after (withFlags false false true true) [0x0983] (·.reg .r3) = some 0 := by decide

theorem test_setge :
    after (withFlags false false true true) [0x0B83] (·.reg .r3) = some 1 ∧
    after (withFlags false true false false) [0x0B83] (·.reg .r3) = some 0 := by decide

theorem test_setugt :
    after (withFlags false false true false) [0x0D83] (·.reg .r3) = some 1 ∧
    after (withFlags false false true true) [0x0D83] (·.reg .r3) = some 0 := by decide

theorem test_setgt :
    after (withFlags false false true false) [0x0F83] (·.reg .r3) = some 1 ∧
    after (withFlags false false true true) [0x0F83] (·.reg .r3) = some 0 := by decide

theorem test_seleq :
    after (withFlags false false true true) [0x1053] (·.reg .r3) = some 0x1111 ∧
    after (withFlags false true false false) [0x1053] (·.reg .r3) = some 0x2222 := by decide

theorem test_selne :
    after (withFlags true false true false) [0x1253] (·.reg .r3) = some 0x1111 ∧
    after (withFlags false false true true) [0x1253] (·.reg .r3) = some 0x2222 := by decide

theorem test_seluge :
    after (withFlags true false true false) [0x1453] (·.reg .r3) = some 0x1111 ∧
    after (withFlags false true false false) [0x1453] (·.reg .r3) = some 0x2222 := by decide

theorem test_selult :
    after (withFlags true true false false) [0x1653] (·.reg .r3) = some 0x1111 ∧
    after (withFlags false false true true) [0x1653] (·.reg .r3) = some 0x2222 := by decide

theorem test_sellt :
    after (withFlags true false true false) [0x1853] (·.reg .r3) = some 0x1111 ∧
    after (withFlags false false true true) [0x1853] (·.reg .r3) = some 0x2222 := by decide

theorem test_selge :
    after (withFlags true true false false) [0x1A53] (·.reg .r3) = some 0x1111 ∧
    after (withFlags false true false false) [0x1A53] (·.reg .r3) = some 0x2222 := by decide

theorem test_selugt :
    after (withFlags true false true false) [0x1C53] (·.reg .r3) = some 0x1111 ∧
    after (withFlags false false true true) [0x1C53] (·.reg .r3) = some 0x2222 := by decide

theorem test_selgt :
    after (withFlags true true false false) [0x1E53] (·.reg .r3) = some 0x1111 ∧
    after (withFlags false false true true) [0x1E53] (·.reg .r3) = some 0x2222 := by decide

/-! T5. -/

theorem test_add_overflow :
    after (start 0x7FFF 0x0001 0) [0x2053] (fun t => (t.reg .r3, flags t)) =
      some (0x8000, [true, true, false, false, false, false]) := by decide

theorem test_add_same_register :
    after (start 0x4000 0 0) [0x2049] (fun t => (t.reg .r1, flags t)) =
      some (0x8000, [true, true, false, false, false, false]) := by decide

theorem test_addc_carry :
    after ({ start 0x7FFF 0x0000 0 with sar := { State.reset.sar with ac := true } }) [0x2253]
      (fun t => (t.reg .r3, flags t)) =
      some (0x8000, [true, true, false, false, false, false]) := by decide

theorem test_addc_no_carry :
    after (start 0x0001 0x0002 0) [0x2253] (fun t => (t.reg .r3, flags t)) =
      some (0x0003, [false, false, false, false, false, false]) := by decide

theorem test_sub_borrow :
    after (start 0x0000 0x0001 0) [0x2453] (fun t => (t.reg .r3, flags t)) =
      some (0xFFFF, [false, true, false, false, false, false]) := by decide

theorem test_sub_overflow :
    after (start 0x8000 0x0001 0) [0x2453] (fun t => (t.reg .r3, flags t)) =
      some (0x7FFF, [true, false, true, false, true, false]) := by decide

theorem test_subc_borrow :
    after (start 0x8000 0x0000 0) [0x2653] (fun t => (t.reg .r3, flags t)) =
      some (0x7FFF, [true, false, true, false, true, false]) := by decide

theorem test_subc_no_borrow :
    after ({ start 0x0005 0x0005 0 with sar := { State.reset.sar with ac := true } }) [0x2653]
      (fun t => (t.reg .r3, flags t)) =
      some (0x0000, [false, false, true, true, true, true]) := by decide

theorem test_or :
    after (start 0x8000 0x0001 0) [0x2853] (fun t => (t.reg .r3, flagsSZ t)) =
      some (0x8001, [true, false]) := by decide

theorem test_and_zero :
    after (start 0xAAAA 0x5555 0) [0x2A53] (fun t => (t.reg .r3, flagsSZ t)) =
      some (0x0000, [false, true]) := by decide

theorem test_xor :
    after (start 0xFFFF 0x7FFF 0) [0x2C53] (fun t => (t.reg .r3, flagsSZ t)) =
      some (0x8000, [true, false]) := by decide

theorem test_mov16nr :
    after (start 0x1000 0x0004 0 [(0x1004, 0x34), (0x1005, 0x12)]) [0x3053] (·.reg .r3) = some 0x1234 := by decide

theorem test_mov16nr_wraps :
    after (start 0xFFFF 0x0003 0 [(0x0002, 0xCD), (0x0003, 0xAB)]) [0x3053] (·.reg .r3) = some 0xABCD := by decide

theorem test_mov8znr : after (start 0x1000 0x0001 0 [(0x1001, 0x80)]) [0x3453] (·.reg .r3) = some 0x0080 := by decide

theorem test_mov8snr : after (start 0x1000 0x0001 0 [(0x1001, 0x80)]) [0x3653] (·.reg .r3) = some 0xFF80 := by decide

theorem test_mov16rn :
    after (start 0x1000 0x0002 0xBEEF) [0x3853] (·.data) = some [(0x1002, 0xEF), (0x1003, 0xBE)] := by decide

theorem test_mov8rn : after (start 0x1000 0x0003 0xBEEF) [0x3C53] (·.data) = some [(0x1003, 0xEF)] := by decide

theorem test_mov16nr_odd : faultOf (start 0x1000 0x0001 0) [0x3053] = some (.misalignedWord 0x1001) := by decide

theorem test_mov16nr_unwritten :
    faultOf (start 0x1000 0x0004 0) [0x3053] = some (.uninitialisedRead (.byte 0x1004)) := by decide

/-! T6 to T10. -/

theorem test_andkr :
    after (start 0xFFFF 0 0) [0xC33F] (fun t => (t.reg .r1, flagsSZ t)) = some (0x003F, [false, false]) := by decide

theorem test_orkr :
    after (start 0x8000 0 0) [0xC341] (fun t => (t.reg .r1, flagsSZ t)) = some (0x8001, [true, false]) := by decide

theorem test_mov16mr_odd : faultOf (start 0x1000 0 0) [0x8451] = some (.misalignedWord 0x1001) := by decide

theorem test_mov16mr_wraps :
    after (start 0x0008 0 0 [(0xFFF8, 0x34), (0xFFF9, 0x12)]) [0x8440] (·.reg .r2) = some 0x1234 := by decide

theorem test_movs8mr : after (start 0x1000 0 0 [(0x1000, 0x80)]) [0x9450] (·.reg .r2) = some 0xFF80 := by decide

theorem test_mov16rm :
    after (start 0x1000 0xBEEF 0) [0xA452] (·.data) = some [(0x1002, 0xEF), (0x1003, 0xBE)] := by decide

theorem test_mov8rm_lowest : after (start 0x1000 0x00AB 0) [0xB440] (·.data) = some [(0x0FF0, 0xAB)] := by decide

theorem test_mov8rm_highest : after (start 0x1000 0x00AB 0) [0xB47F] (·.data) = some [(0x102F, 0xAB)] := by decide

theorem test_movkr_negative :
    after (start 0 0 0) [0x4380] (fun t => (t.reg .r1, flags t)) =
      some (0xFF80, [false, false, false, false, false, false]) := by decide

theorem test_cmpkr_sign_extends :
    after (start 0xFFFF 0 0) [0x53FF] (fun t => (t.reg .r1, flags t)) =
      some (0xFFFF, [false, false, true, true, false, false]) := by decide

theorem test_cmpkr_overflow :
    after (start 0x8000 0 0) [0x5301] (fun t => (t.reg .r1, flags t)) =
      some (0x8000, [true, false, true, false, false, false]) := by decide

theorem test_addkr_zero_extends :
    after (start 0xFF01 0 0) [0x63FF] (fun t => (t.reg .r1, flags t)) =
      some (0x0000, [false, false, true, true, true, true]) := by decide

theorem test_subkr_zero_extends :
    after (start 0x8000 0 0) [0x73FF] (fun t => (t.reg .r1, flags t)) =
      some (0x7F01, [true, false, true, false, true, false]) := by decide

theorem test_mov16qr :
    after (start 0 0 0 [(0x0102, 0xCD), (0x0103, 0xAB)]) [0x4202] (·.reg .r1) = some 0xABCD := by decide

theorem test_movs8qr : after (start 0 0 0 [(0x01FF, 0x80)]) [0x52FF] (·.reg .r1) = some 0xFF80 := by decide

theorem test_mov16rq_odd : faultOf (start 0x0001 0 0) [0x6201] = some (.misalignedWord 0x0101) := by decide

theorem test_mov16rq : after (start 0xBEEF 0 0) [0x6202] (·.data) = some [(0x0102, 0xEF), (0x0103, 0xBE)] := by decide

theorem test_mov8rq_wraps :
    after ({ start 0x1234 0 0 with sp := 0xFF80 }) [0x72FF] (·.data) = some [(0x007F, 0x34)] := by decide

theorem test_addks_carry :
    after ({ start 0 0 0 with sp := 0xFFFF }) [0xC001] (fun t => (t.sp, flags t)) =
      some (0x0000, [false, false, true, true, true, true]) := by decide

theorem test_subks_overflow :
    after ({ start 0 0 0 with sp := 0x8000 }) [0xC801] (fun t => (t.sp, flags t)) =
      some (0x7FFF, [true, false, true, false, true, false]) := by decide

/-! T11. -/

theorem test_push :
    after (start 0xA55A 0 0) [0x0101] (fun t => (t.sp, t.data)) =
      some (0x00FE, [(0x00FE, 0x5A), (0x00FF, 0xA5)]) := by decide

theorem test_push_odd :
    faultOf ({ start 0xA55A 0 0 with sp := 0x0101 }) [0x0101] = some (.misalignedWord 0x00FF) := by decide

theorem test_pop :
    after ({ start 0 0 0 [(0x00FE, 0x5A), (0x00FF, 0xA5)] with sp := 0x00FE }) [0x0301] (fun t => (t.reg .r1, t.sp)) =
      some (0xA55A, 0x0100) := by decide

theorem test_movsr : after ({ start 0 0 0 with sp := 0x1234 }) [0x0502] (·.reg .r2) = some 0x1234 := by decide

theorem test_movrs : after (start 0 0x0201 0) [0x0702] (·.sp) = some 0x0201 := by decide

theorem test_addrs :
    after (start 0 0xFFF0 0) [0x0902] (fun t => (t.sp, flags t)) =
      some (0x00F0, [false, false, true, false, true, false]) := by decide

theorem test_subrs :
    after (start 0 0x0010 0) [0x0B02] (fun t => (t.sp, flags t)) =
      some (0x00F0, [false, false, true, false, true, false]) := by decide

theorem test_addsr :
    after (start 0 0x0004 0) [0x0D02] (fun t => (t.reg .r2, flags t)) =
      some (0x0104, [false, false, false, false, false, false]) := by decide

theorem test_subsr :
    after (start 0 0x0100 0) [0x0F02] (fun t => (t.reg .r2, flags t)) =
      some (0x0000, [false, false, true, true, true, true]) := by decide

theorem test_jmpreg : after (start 0 0 0x0400) [0x0123] (·.pc) = some 0x0400 := by decide

theorem test_callreg :
    after (start 0 0 0x0400) [0x0323] (fun t => (t.pc, t.sp, t.data)) =
      some (0x0400, 0x00FE, [(0x00FE, 0x11), (0x00FF, 0x00)]) := by decide

theorem test_movSr_keeps_flags :
    after (withFlags true false true false) [0x0F23] flags =
      some [true, false, true, false, false, false] := by decide

theorem test_lsr : after (start 0x8001 0 0) [0x0141] (·.reg .r1) = some 0x4000 := by decide

theorem test_lsl : after (start 0x8001 0 0) [0x0341] (·.reg .r1) = some 0x0002 := by decide

theorem test_asr : after (start 0x8001 0 0) [0x0541] (·.reg .r1) = some 0xC000 := by decide

theorem test_shifts_keep_flags :
    after (withFlags true true true true) [0x0141] flags = some [true, true, true, true, false, false] := by decide

theorem test_neg_zero :
    after (start 0x0000 0 0) [0x0B41] (fun t => (t.reg .r1, flags t)) =
      some (0x0000, [false, false, true, true, false, false]) := by decide

theorem test_neg_most_negative :
    after (start 0x8000 0 0) [0x0B41] (fun t => (t.reg .r1, flags t)) =
      some (0x8000, [true, true, false, false, false, false]) := by decide

theorem test_not :
    after (start 0x00FF 0 0) [0x0D41] (fun t => (t.reg .r1, flagsSZ t)) = some (0xFF00, [true, false]) := by decide

theorem test_not_to_zero :
    after (start 0xFFFF 0 0) [0x0D41] (fun t => (t.reg .r1, flagsSZ t)) = some (0x0000, [false, true]) := by decide

theorem test_movKr :
    after (start 0 0 0) [0x0161, 0xBEEF] (fun t => (t.reg .r1, t.pc)) = some (0xBEEF, 0x0012) := by decide

theorem test_movKr_second_word_unmapped : faultOf (start 0 0 0) [0x0165] = some (.unmappedProgram 0x0011) := by decide

theorem test_mov16ar :
    after (start 0 0 0 [(0x2000, 0x11), (0x2001, 0x22)]) [0x0361, 0x2000] (fun t => (t.reg .r1, t.pc)) =
      some (0x2211, 0x0012) := by decide

theorem test_mov8zar : after (start 0 0 0 [(0x2001, 0xF2)]) [0x0561, 0x2001] (·.reg .r1) = some 0x00F2 := by decide

theorem test_mov8sar : after (start 0 0 0 [(0x2001, 0xF2)]) [0x0761, 0x2001] (·.reg .r1) = some 0xFFF2 := by decide

theorem test_mov16ra :
    after (start 0x0102 0 0) [0x0961, 0x2002] (·.data) = some [(0x2002, 0x02), (0x2003, 0x01)] := by decide

theorem test_mov8ra : after (start 0x0102 0 0) [0x0B61, 0x2003] (·.data) = some [(0x2003, 0x02)] := by decide

/-! T12 and T13. -/

theorem test_ret :
    after ({ start 0 0 0 [(0x00FE, 0x21), (0x00FF, 0x00)] with sp := 0x00FE }) [0x0080] (fun t => (t.pc, t.sp)) =
      some (0x0021, 0x0100) := by decide

theorem test_reti : faultOf (start 0 0 0) [0x0280] = some (.interruptUnmodelled) := by decide

theorem test_dint :
    after ({ start 0 0 0 with sar := { State.reset.sar with i := true } }) [0x0480] (·.sar.i) =
      some false := by decide

theorem test_eint : after (start 0 0 0) [0x0680] (fun t => (t.sar.i, t.pc)) = some (true, 0x0011) := by decide

theorem test_movrr : after (start 0x1234 0 0) [0x000A] (·.reg .r2) = some 0x1234 := by decide

theorem test_nop :
    after (start 0x1 0x2 0x3) [0x0000] (fun t => (t.regs, t.pc)) = some ((start 1 2 3).regs, 0x0011) := by decide

theorem test_cmprr_order :
    after (start 0x0005 0x0003 0) [0x020A] (fun t => (t.reg .r2, flags t)) =
      some (0x0003, [false, true, false, false, false, false]) := by decide

theorem test_cmprr_overflow :
    after (start 0x8000 0x0001 0) [0x020A] (fun t => (t.reg .r2, flags t)) =
      some (0x0001, [true, true, false, false, false, false]) := by decide

theorem test_zext : after (start 0xABCD 0 0) [0x040A] (·.reg .r2) = some 0x00CD := by decide

theorem test_sext : after (start 0xAB80 0 0) [0x060A] (·.reg .r2) = some 0xFF80 := by decide

theorem test_sext_positive : after (start 0xFF7F 0 0) [0x060A] (·.reg .r2) = some 0x007F := by decide

theorem test_bswap : after (start 0xABCD 0 0) [0x080A] (·.reg .r2) = some 0xCDAB := by decide

theorem test_sextw : after (start 0x8000 0 0) [0x0A0A] (·.reg .r2) = some 0xFFFF := by decide

theorem test_sextw_positive : after (start 0x7FFF 0 0) [0x0A0A] (·.reg .r2) = some 0x0000 := by decide

theorem test_mov16pr :
    after ({ start 0x0040 0 0 with prog := [(0x0040, 0xCAFE)] }) [0x0E0A] (·.reg .r2) = some 0xCAFE := by decide

theorem test_mov16pr_unmapped : faultOf (start 0x0041 0 0) [0x0E0A] = some (.unmappedProgram 0x0041) := by decide

/-! Reserved blocks: the fault names the whole word (60_exceptions.md R231). -/

theorem test_reserved_words :
    ([0x2E00, 0x2FFF, 0xC180, 0xCFFF, 0x0520, 0x0720, 0x0920, 0x0B20, 0x0D3F, 0x0740, 0x0940, 0x0F40, 0x0D60, 0x0F60,
      0x0880, 0x0EFF, 0x0C0A] : List Word).all
      (fun w => faultOf (start 0 0 0) [w] == some (.reservedEncoding w)) = true := by decide
/-! Witnesses: for each statement with hypotheses, a concrete state and operands that meet them, one for each clause, at
the ends of the ranges. -/

/-- The outcome is a next state. -/
def goesOn : Host.Outcome State Fault Refusal → Bool
  | .next _ => true
  | _ => false

/-- V, S, C, Z as a status register. -/
def sarOf (v sg c z : Bool) : Sar := { i := false, v := v, s := sg, c := c, z := z, ac := false, az := false }

/-- A word at the top of the address space, and pointers to it in r1, SP. -/
def topWord : State := { start 0xFFFE 0 0xBEEF [(0xFFFE, 0x34), (0xFFFF, 0x12)] with sp := 0xFFFE }

/-- A word's low byte at the top of the address space, its high byte not written, and pointers to it in r1, SP. -/
def topHalf : State := { start 0xFFFE 0 0xBEEF [(0xFFFE, 0x34)] with sp := 0xFFFE }

/-- A store, `st.w r3, [r1, r2]`, loaded at pc. -/
def storing : State := { start 0x1000 0x0002 0xBEEF [(0x1002, 0x11)] with prog := [(0x0010, 0x3853)] }

/-- A two-word move across the top of program memory, `mov.w 0xBEEF, r5`. -/
def wideAtTop : State := { start 0 0 0 with pc := 0xFFFF, prog := [(0x0000, 0xBEEF), (0xFFFF, 0x0165)] }

theorem test_witness_ReservedBlocksAreThoseOfTheTable :
    decode [0x2E00, 0x0000] = .ok (.reservedT5_0111 0, [0x0000]) ∧ isReserved 0x2E00 = true ∧
    decode [0x0000, 0x0000] = .ok (.movrr .r0 .r0, [0x0000]) ∧ isReserved 0x0000 = false :=
  ⟨rfl, by decide, rfl, by decide⟩

theorem test_witness_LengthIsSettledByTheFirstWord :
    decode [0x0B65, 0xBEEF] = .ok (.mov8ra .r5 0xBEEF, []) ∧ takesSecondWord 0x0B65 = true ∧
    decode [0x0D60, 0xBEEF] = .ok (.reservedT11_110_11 0, [0xBEEF]) ∧ takesSecondWord 0x0D60 = false :=
  ⟨rfl, by decide, rfl, by decide⟩

theorem test_witness_StepRunsTheDecodedInstruction :
    programWord storing storing.pc = some 0x3853 ∧ decode [0x3853] = .ok (.mov16rn .r1 .r2 .r3, []) ∧
    programWord wideAtTop wideAtTop.pc = some 0x0165 ∧ programWord wideAtTop (wideAtTop.pc + 1) = some 0xBEEF ∧
    decode [0x0165, 0xBEEF] = .ok (.movKr .r5 0xBEEF, []) := ⟨by decide, rfl, by decide, by decide, rfl⟩

theorem test_witness_FetchOfUnloadedWordFaults :
    programWord (start 0 0 0) (start 0 0 0).pc = none ∧
    (let s : State := { start 0 0 0 with pc := 0xFFFF, prog := [(0xFFFF, 0x0165)] }
     programWord s s.pc = some 0x0165 ∧ takesSecondWord 0x0165 = true ∧ programWord s (s.pc + 1) = none) := by decide

/-- Also for StepKeepsProgramMemory. -/
theorem test_witness_StepKeepsMemoriesCanonical : storing.wf ∧ goesOn (step storing) = true := by decide

theorem test_witness_WrittenBytesStayWritten :
    goesOn (step storing) = true ∧ (dataByte storing 0x1002).isSome = true := by decide

/-- One state and instruction for all three clauses. -/
theorem test_witness_FlagsAreWrittenAsListed :
    goesOn (exec (.movrr .r1 .r2) (start 1 2 3)) = true ∧ writesSR (.movrr .r1 .r2) = false ∧
    writesAR (.movrr .r1 .r2) = false ∧ writesI (.movrr .r1 .r2) = false := by decide

theorem test_witness_StackPointerIsWrittenAsListed :
    goesOn (exec (.mov16ra .r3 0xFFFE) (start 1 2 3)) = true ∧ writesSp (.mov16ra .r3 0xFFFE) = false := by decide

theorem test_witness_DataMemoryIsWrittenAsListed :
    goesOn (exec (.pop .r1) topWord) = true ∧ writesData (.pop .r1) = false := by decide

theorem test_witness_RegistersAreWrittenAsListed :
    goesOn (exec (.movrr .r1 .r2) (start 1 2 3)) = true ∧ writesReg (.movrr .r1 .r2) ≠ some .r3 := by decide

/-- One clause for each fault but UnmappedData, which the statement says never occurs. -/
theorem test_witness_FaultsAreRaisedAsListed :
    exec (.reservedT13_110 127) (start 0 0 0) = .fault (.reservedEncoding 0x0C7F) ∧
    exec (.mov16ar .r0 0xFFFF) (start 0 0 0) = .fault (.misalignedWord 0xFFFF) ∧
    exec (.mov16pr .r1 .r2) (start 0xFFFF 0 0) = .fault (.unmappedProgram 0xFFFF) ∧
    exec .reti (start 0 0 0) = .fault .interruptUnmodelled ∧
    exec (.mov8zar .r0 0xFFFF) (start 0 0 0) = .fault (.uninitialisedRead (.byte 0xFFFF)) := ⟨rfl, rfl, rfl, rfl, rfl⟩

/-- For ConditionCodesFollowTheTable, ConditionalBranchGoesWhereItsConditionSays, ConditionalSetWritesOneOrZero and
ConditionalSelectCopiesOneOperand: each condition true and false, with the flags of 95_test_vectors.md section 2.2. -/
theorem test_witness_conditions :
    CondTrue (sarOf false false true true) .eq ∧ ¬ CondTrue (sarOf false false true false) .eq ∧
    CondTrue (sarOf false false true false) .ne ∧ ¬ CondTrue (sarOf false false true true) .ne ∧
    CondTrue (sarOf true false true false) .uge ∧ ¬ CondTrue (sarOf true true false false) .uge ∧
    CondTrue (sarOf true true false false) .ult ∧ ¬ CondTrue (sarOf true false true false) .ult ∧
    CondTrue (sarOf true false true false) .lt ∧ ¬ CondTrue (sarOf true true false false) .lt ∧
    CondTrue (sarOf true true false false) .ge ∧ ¬ CondTrue (sarOf false true false false) .ge ∧
    CondTrue (sarOf false false true false) .ugt ∧ ¬ CondTrue (sarOf false false true true) .ugt ∧
    CondTrue (sarOf true true false false) .gt ∧ ¬ CondTrue (sarOf false false true true) .gt := by
  simp [CondTrue, sarOf]

/-- Two registers agree on V, S, C, Z and differ elsewhere: the second clause of ConditionCodesFollowTheTable. -/
theorem test_witness_ConditionCodesFollowTheTable :
    (let f := sarOf true false true false
     let g : Sar := { f with i := true, ac := true, az := true }
     f.v = g.v ∧ f.s = g.s ∧ f.c = g.c ∧ f.z = g.z ∧ f ≠ g) := by decide

/-- SP even at both ends. Also for PushStoresAtTheNewStackPointer, PushThenPopCopies and CallThenReturnComesBack. -/
theorem test_witness_CallsPushTheReturnAddress :
    ({ start 0 0 0 with sp := 0x0000 } : State).sp.getLsbD 0 = false ∧ topWord.sp.getLsbD 0 = false := by decide

theorem test_witness_AddThenAddcIsTheDoubleWordSum :
    Reg.r4 ≠ Reg.r1 ∧ Reg.r4 ≠ Reg.r3 ∧ Reg.r5 ≠ Reg.r4 := by decide

/-- The four forms, all at address 0xFFFE; the pointer form with K = 0, Rn = 0x0E. Also for
PopLoadsAtTheOldStackPointer and ReturnLoadsTheProgramCounter, whose address is SP. -/
theorem test_witness_WordLoadsReadLittleEndian :
    (0xFFFE#16).getLsbD 0 = false ∧ dataByte topWord 0xFFFE = some 0x34 ∧ dataByte topWord (0xFFFE + 1) = some 0x12 ∧
    topWord.reg .r1 + topWord.reg .r2 = 0xFFFE#16 ∧
    BitVec.ofInt 16 (((({ topWord with regs := topWord.regs.set .r1 0x000E } : State).reg .r1).toNat : Int) +
      ((0#6).toNat - 16)) = 0xFFFE#16 ∧
    topWord.sp + BitVec.ofNat 16 (0#8).toNat = 0xFFFE#16 := by decide

/-- The four addresses, all 0xFFFF; the pointer form with the highest field, 63. -/
theorem test_witness_ByteLoadsWiden :
    dataByte topWord 0xFFFF = some 0x12 ∧
    (let s : State := { topWord with regs := topWord.regs.set .r2 1 }
     s.reg .r1 + s.reg .r2 = 0xFFFF#16) ∧
    (let s : State := { topWord with regs := topWord.regs.set .r1 0xFFD0 }
     BitVec.ofInt 16 (((s.reg .r1).toNat : Int) + ((63#6).toNat - 16)) = 0xFFFF#16) ∧
    (let s : State := { topWord with sp := 0xFF00 }
     s.sp + BitVec.ofNat 16 (255#8).toNat = 0xFFFF#16) := by decide

/-- Even addresses of the four forms; nothing need be written. -/
theorem test_witness_WordStoresWriteTwoBytes :
    (topHalf.reg .r1 + topHalf.reg .r2).getLsbD 0 = false ∧
    (BitVec.ofInt 16 (((topHalf.reg .r1).toNat : Int) + ((0#6).toNat - 16))).getLsbD 0 = false ∧
    (topHalf.sp + BitVec.ofNat 16 (0#8).toNat).getLsbD 0 = false ∧ (0xFFFE#16).getLsbD 0 = false := by decide

/-- Odd addresses of the thirteen clauses: r1 + r2, r1 + 63 - 16, SP + 254, an absolute 0xFFFF, SP and SP - 2. -/
theorem test_witness_OddWordAccessesFault :
    (let s : State := { start 0xFFFE 0x0001 0 with sp := 0x0001 }
     (s.reg .r1 + s.reg .r2).getLsbD 0 = true ∧
     (BitVec.ofInt 16 (((s.reg .r1).toNat : Int) + ((63#6).toNat - 16))).getLsbD 0 = true ∧
     (s.sp + BitVec.ofNat 16 (254#8).toNat).getLsbD 0 = true ∧ (0xFFFF#16).getLsbD 0 = true ∧
     s.sp.getLsbD 0 = true ∧ (s.sp - 2).getLsbD 0 = true) := by decide

/-- Address 0xFFFE of every form, with nothing written and with the low byte alone written. -/
theorem test_witness_UnwrittenBytesFault :
    (0xFFFE#16).getLsbD 0 = false ∧ dataByte (start 0xFFFE 0 0) 0xFFFE = none ∧
    (dataByte topHalf 0xFFFE).isSome = true ∧ dataByte topHalf (0xFFFE + 1) = none ∧
    topHalf.reg .r1 + topHalf.reg .r2 = 0xFFFE#16 ∧ topHalf.sp = 0xFFFE#16 ∧
    BitVec.ofInt 16 (((topHalf.reg .r1).toNat : Int) + ((16#6).toNat - 16)) = 0xFFFE#16 ∧
    topHalf.sp + BitVec.ofNat 16 (0#8).toNat = 0xFFFE#16 := by decide

theorem test_witness_MoveWideImmediateTakesTheNextWord :
    (let s : State := { start 0 0 0 with pc := 0xFFFF, prog := [(0xFFFF, 0x017D)] }
     programWord s s.pc = some (0b0000000101100000#16 ||| place 0b11#2 3 ||| place Reg.r5.bits 0) ∧
     programWord s (s.pc + 1) = none) := by decide

theorem test_witness_IndirectJumpTakesTheWholeRegister :
    programWord (start 0xFFFF 0 0) ((start 0xFFFF 0 0).reg .r1) = none := by decide

theorem test_witness_ProgramMemoryLoad :
    programWord { start 0xFFFF 0 0 with prog := [(0xFFFF, 0xCAFE)] } 0xFFFF = some 0xCAFE ∧
    (start 0xFFFF 0 0).reg .r1 = 0xFFFF#16 ∧ programWord (start 0xFFFF 0 0) 0xFFFF = none := by decide

theorem test_witness_RetiAndReservedBlocksStop :
    decode [0x0EFF] = .ok (.reservedT12_1xx 3 127, []) ∧ (Instr.reservedT12_1xx 3 127).wellFormed = false :=
  ⟨rfl, rfl⟩

/-! The checked machine. Expected values are those of 95_test_vectors.md, sections 2.3, 2.4, 2.12 and 3 (P6); those of the
order of faults and of what is written afterwards are worked out from R231 and R29. -/

/-- One checked step with the words loaded at pc, from a state in which just these places are written. -/
def checkedOn (s : State) (written : List Place) (ws : List Word) : Host.Outcome Tracked Fault Refusal :=
  checkedStep { state := s.setProg (loadProgram s.prog s.pc ws), written := written }

/-- The fault, if the step has one. -/
def checkedFault : Host.Outcome Tracked Fault Refusal → Option Fault
  | .fault f => some f
  | _ => none

/-- The places written after the step, if it has a next state. -/
def checkedWritten : Host.Outcome Tracked Fault Refusal → Option (List Place)
  | .next k => some k.written
  | _ => none

theorem test_checked_sp_never_written :
    checkedFault (checkedOn (start 0 0 0) [] [0xF000]) = some (.uninitialisedRead .sp) ∧
    checkedFault (checkedOn (start 0 0 0) [.flag .i, .reg .r0] [0x0100]) = some (.uninitialisedRead .sp) := by decide

theorem test_checked_flags_never_written :
    checkedFault (checkedOn (start 0 0 0) [.reg .r1, .reg .r2] [0x2253]) = some (.uninitialisedRead (.flag .ac)) ∧
    checkedFault (checkedOn (start 0 0 0) [.flag .i, .reg .r0] [0xD003]) = some (.uninitialisedRead (.flag .z)) := by
  decide

/-- `mov r0, r0` right after reset; `mov r1, r0` there. -/
theorem test_checked_moves_after_reset :
    checkedWritten (checkedOn State.reset Tracked.reset.written [0x0000]) = some [.flag .i] ∧
    checkedFault (checkedOn State.reset Tracked.reset.written [0x0008]) = some (.uninitialisedRead (.reg .r1)) := by
  decide

/-- The operand read comes before the alignment (R231): `ld.w [r1, r2], r3`, r1 + r2 odd, r2 never written. -/
theorem test_checked_operand_before_alignment :
    checkedFault (checkedOn (start 0x1001 0 0) [.reg .r1] [0x3053]) = some (.uninitialisedRead (.reg .r2)) ∧
    checkedFault (checkedOn (start 0x1001 0 0) [.reg .r1, .reg .r2] [0x3053]) = some (.misalignedWord 0x1001) := by
  decide

/-- `cmp r1, 10` writes V, S, C and Z, not AC and AZ (R29). -/
theorem test_checked_compare_writes :
    checkedWritten (checkedOn (start 0 0 0) [.reg .r1] [0x530A]) =
      some [.flag .v, .flag .s, .flag .c, .flag .z, .reg .r1] := by decide

/-- A launch that presets r1 and SP and nothing else. -/
theorem test_launch_written :
    (Launch.mk [] [] [(.r1, 0x1234)] (some 0x0100) none [] 0x0010).written = [.reg .r1, .sp, .flag .i] := by decide

/-- A one-word program at pc = 0x0010, with registers and flags preset: the form of the start states of part 2. -/
def vectorLaunch (word : Word) (regs : List (Reg × Word)) (flags : List (Flag × Bool)) : Launch :=
  { program := [(0x0010, word)], dataImage := [], presetRegs := regs, presetSp := none, presetPc := some 0x0010,
    presetFlags := flags, endPc := 0x0011 }

/-- `addc r1, r2, r3` of section 2.4 from AC alone, and the vector in which AC was never written. -/
theorem test_launch_presets_ac_alone :
    (match checkedStep (vectorLaunch 0x2253 [(.r1, 0xFFFF), (.r2, 0x0000)] [(.ac, true)]).tracked with
      | .next k => some (k.state.reg .r3, flags k.state)
      | _ => none) = some (0x0000, [false, false, true, true, true, true]) ∧
    checkedFault (checkedStep (vectorLaunch 0x2253 [(.r1, 0xFFFF), (.r2, 0x0000)] []).tracked) =
      some (.uninitialisedRead (.flag .ac)) := by decide

/-- `brlt` of section 2.2 from V, S, C and Z alone: AC and AZ stay never written. -/
theorem test_launch_presets_sr_alone :
    (match checkedStep (vectorLaunch 0xD805 [] [(.v, false), (.s, true), (.c, false), (.z, false)]).tracked with
      | .next k => some (k.state.pc, k.written)
      | _ => none) = some (0x0016, [.flag .v, .flag .s, .flag .c, .flag .z, .flag .i]) := by decide

/-- An unloaded word at pc; `ld.w [r1, r2], r3` with r2 not written; the same with both written, going on and
faulting. -/
theorem test_witness_UnwrittenOperandsFault :
    (let i := Instr.mov16nr .r1 .r2 .r3
     let s : State := { start 0xFFFE 0 0 [(0xFFFE, 0x34), (0xFFFF, 0x12)] with prog := [(0x0010, 0x3053)] }
     let u : State := { s with data := [] }
     fetch (start 0 0 0) = .error (.unmappedProgram 0x0010) ∧ fetch s = .ok i ∧ fetch u = .ok i ∧
     readsPlace i (.reg .r2) ∧ Place.reg .r2 ∉ [Place.reg .r1] ∧
     (∀ p, readsPlace i p → p ∈ [Place.reg .r1, Place.reg .r2]) ∧
     exec i s = .next { s with regs := s.regs.set .r3 0x1234, pc := 0x0011 } ∧
     exec i u = .fault (.uninitialisedRead (.byte 0xFFFE))) := by
  refine ⟨rfl, rfl, rfl, by simp [readsPlace, readsReg], by decide, fun p hp => ?_, rfl, rfl⟩
  cases p <;> simp_all [readsPlace, readsReg, readsSp, readsFlag, conditionOf]

/-- Two states that differ in R2 and Z, neither of them written: `mov r1, r0` goes on and
`mov r2, r0` faults. -/
theorem test_witness_UnwrittenValuesNeverShow :
    (let s : State := { start 5 0 0 with prog := [(0x0010, 0x0008), (0x0011, 0x0010)] }
     let k : Tracked := { state := s, written := [.reg .r1] }
     let j : Tracked := { k with state := (s.setReg .r2 7).setSar (sarOf false false false true) }
     SameWhereWritten k j ∧ k ≠ j ∧
     checkedStep k =
       .next { state := { s with regs := s.regs.set .r0 5, pc := 0x0011 }, written := [.reg .r0, .reg .r1] } ∧
     checkedStep { k with state := s.setPc 0x0011 } = .fault (.uninitialisedRead (.reg .r2))) := by
  refine ⟨⟨rfl, rfl, rfl, rfl, rfl, ?_⟩, by decide, rfl, rfl⟩
  simp [SameAt, State.setReg, State.setSar, RegFile.set, State.reg, RegFile.get]

end Sys2Proof.Tests
end

section
/-! PROOFS. The family 30_encoding.md: what single words encode. -/

namespace Sys2Proof.Proofs

open Sys2Proof Sys2Proof.Claims

/-- `mov Rs, Rd` is op = 000 of T13 (R95), at every pair of registers. -/
theorem encodedAs_wordT13_movrr (rs rd : Reg) : EncodedAs (wordT13 0b000#3 rs rd) (.movrr rs rd) := by
  have leaf : decodeFirst (wordT13 0b000#3 rs rd) = .whole (.movrr rs rd) := by
    rw [decodeFirst_wordT13]
    simp [decodeT13]
  exact decode_whole leaf

/-- All fields of T13 at 000 make the word 0. -/
theorem wordT13_zero : wordT13 0b000#3 .r0 .r0 = 0x0000#16 := by decide

/-- Settles O5: the word 0 is T13 with every field 000, which is `mov` at R0, R0. -/
theorem nopWordIsMovR0R0 : Obligations.NopWordIsMovR0R0 := by
  unfold Obligations.NopWordIsMovR0R0
  rw [← wordT13_zero]
  exact encodedAs_wordT13_movrr .r0 .r0

end Sys2Proof.Proofs
end

section
/-! PROOFS. The family 42_imm_offset_sp.md: the immediate move. -/

namespace Sys2Proof.Proofs

open Sys2Proof Sys2Proof.Machine Sys2Proof.Claims

/-- The fixed bits of T8 (R90) with op = 00, which places no bit of its own. -/
theorem wordT8_op00 (rd : Reg) (k : BitVec 8) :
    wordT8 0b00#2 rd k = 0b0100000100000000#16 ||| place rd.bits 9 ||| place k 0 := by
  have op00 : place 0b00#2 12 = 0#16 := by decide
  rw [wordT8, op00, BitVec.or_zero]

/-- `mov K, Rd` is op = 00 of T8 (R90), at every register and immediate. -/
theorem encodedAs_wordT8_movkr (rd : Reg) (k : BitVec 8) : EncodedAs (wordT8 0b00#2 rd k) (.movkr rd k) := by
  have leaf : decodeFirst (wordT8 0b00#2 rd k) = .whole (.movkr rd k) := by
    rw [decodeFirst_wordT8]
    simp [decodeT8]
  exact decode_whole leaf

/-- The end of a move as one update of the state: Rd and pc, nothing else. -/
theorem endMove_eq (s : State) (rd : Reg) (v : Word) :
    s.endMove rd v = { s with regs := s.regs.set rd v, pc := s.pc + 1 } := rfl

theorem exec_movkr (rd : Reg) (k : BitVec 8) (s : State) :
    exec (.movkr rd k) s = .next (s.endMove rd (sext16 k)) := rfl

/-- Settles O49: the word is T8 with op = 00, and `mov K, Rd` ends as a move of the sign-extended K does. -/
theorem moveImmediateSignExtends : Obligations.MoveImmediateSignExtends := by
  unfold Obligations.MoveImmediateSignExtends
  intro rd k s
  constructor
  · rw [← wordT8_op00]
    exact encodedAs_wordT8_movkr rd k
  · rw [exec_movkr, endMove_eq, sext16_eq]

end Sys2Proof.Proofs
end

section
/-! PROOFS. The family 30_encoding.md: decoding gives back every encoded instruction. -/

namespace Sys2Proof.Proofs

open Sys2Proof Sys2Proof.Machine Sys2Proof.Claims

/-- T6 is reserved wherever bit 7 is set, whatever bit 6 is (R101). -/
theorem decodeT6_of_bit7 {w : Word} (h7 : w.getLsbD 7 = true) :
    decodeT6 w = .reservedT6_1x (w.extractLsb' 9 3) (w.extractLsb' 0 7) := by
  have op : w.extractLsb' 6 2 = 0b10#2 ∨ w.extractLsb' 6 2 = 0b11#2 := by
    cases h6 : w.getLsbD 6 <;> simp only [extract2_eq, Nat.reduceAdd, h7, h6] <;> decide
  obtain op | op := op <;> simp [decodeT6, op]

/-- T12 is reserved wherever bit 11 is set, whatever bits 10 and 9 are (R101). -/
theorem decodeT12_of_bit11 {w : Word} (h11 : w.getLsbD 11 = true) :
    decodeT12 w = .reservedT12_1xx (w.extractLsb' 9 2) (w.extractLsb' 0 7) := by
  have op : w.extractLsb' 9 3 = 0b100#3 ∨ w.extractLsb' 9 3 = 0b101#3 ∨ w.extractLsb' 9 3 = 0b110#3 ∨
      w.extractLsb' 9 3 = 0b111#3 := by
    cases h10 : w.getLsbD 10 <;> cases h9 : w.getLsbD 9 <;>
      simp only [extract3_eq, Nat.reduceAdd, h11, h10, h9] <;> decide
  obtain op | op | op | op := op <;> simp [decodeT12, op]

/-- The row of the column op2 = 11 of R99 in which a two-word form stands. -/
def wideBits : WideOp → BitVec 3
  | .movKr => 0b000#3
  | .mov16ar => 0b001#3
  | .mov8zar => 0b010#3
  | .mov8sar => 0b011#3
  | .mov16ra => 0b100#3
  | .mov8ra => 0b101#3

theorem decodeFirst_wide (op : WideOp) (rd : Reg) : decodeFirst (wordT11 (wideBits op) 0b11#2 rd) = .wide op rd := by
  rw [decodeFirst_wordT11]
  cases op <;> simp [decodeT11, wideBits]

/-- Settles O1: by the format of the instruction; its first word reaches the format's leaf of the decoding tree, and the
leaf reads every field back. -/
theorem decodeEncodeRoundTrip : Obligations.DecodeEncodeRoundTrip := by
  unfold Obligations.DecodeEncodeRoundTrip
  intro i rest
  cases i with
  | jmprel a | callrel a => exact decode_whole (by simp [decodeFirst_wordT1, decodeT1]) rest
  | breq a | brne a | bruge a | brult a | brlt a | brge a | brugt a | brgt a =>
    exact decode_whole (by simp [decodeFirst_wordT2, decodeT2]) rest
  | seteq rd | setne rd | setuge rd | setult rd | setlt rd | setge rd | setugt rd | setgt rd =>
    exact decode_whole (by simp [decodeFirst_wordT3, decodeT3]) rest
  | seleq rn rs rd | selne rn rs rd | seluge rn rs rd | selult rn rs rd | sellt rn rs rd | selge rn rs rd
  | selugt rn rs rd | selgt rn rs rd => exact decode_whole (by simp [decodeFirst_wordT4, decodeT4]) rest
  | addrrr rn rs rd | adcrrr rn rs rd | subrrr rn rs rd | subcrrr rn rs rd | orrrr rn rs rd | andrrr rn rs rd
  | xorrrr rn rs rd | mov16nr rn rs rd | mov8znr rn rs rd | mov8snr rn rs rd | mov16rn rn rs rd | mov8rn rn rs rd =>
    exact decode_whole (by simp [decodeFirst_wordT5, decodeT5]) rest
  | reservedT5_0111 x => exact decode_whole (by simp [decodeFirst_wordReservedT5, decodeT5]) rest
  | andkr rd k | orkr rd k => exact decode_whole (by simp [decodeFirst_wordT6, decodeT6]) rest
  | reservedT6_1x x y =>
    have reserved := decodeT6_of_bit7 (w := wordReservedT6 x y) (by simp [wordReservedT6, place])
    exact decode_whole (by simp [decodeFirst_wordReservedT6, reserved]) rest
  | mov16mr rd rn k | movs8mr rd rn k | mov16rm rd rn k | mov8rm rd rn k =>
    exact decode_whole (by simp [decodeFirst_wordT7, decodeT7]) rest
  | movkr rd k | cmpkr rd k | addkr rd k | subkr rd k =>
    exact decode_whole (by simp [decodeFirst_wordT8, decodeT8]) rest
  | mov16qr rd k | movs8qr rd k | mov16rq rd k | mov8rq rd k =>
    exact decode_whole (by simp [decodeFirst_wordT9, decodeT9]) rest
  | addks k | subks k => exact decode_whole (by simp [decodeFirst_wordT10, decodeT10]) rest
  | push rd | pop rd | movsr rd | movrs rd | addrs rd | subrs rd | addsr rd | subsr rd | jmpreg rd | callreg rd
  | movSr rd | lsr rd | lsl rd | asr rd | neg rd | not rd =>
    exact decode_whole (by simp [decodeFirst_wordT11, decodeT11]) rest
  | movKr rd w2 => exact decode_wide (decodeFirst_wide .movKr rd) w2 rest
  | mov16ar rd w2 => exact decode_wide (decodeFirst_wide .mov16ar rd) w2 rest
  | mov8zar rd w2 => exact decode_wide (decodeFirst_wide .mov8zar rd) w2 rest
  | mov8sar rd w2 => exact decode_wide (decodeFirst_wide .mov8sar rd) w2 rest
  | mov16ra rd w2 => exact decode_wide (decodeFirst_wide .mov16ra rd) w2 rest
  | mov8ra rd w2 => exact decode_wide (decodeFirst_wide .mov8ra rd) w2 rest
  | reservedT11_010_01 x | reservedT11_011_01 x | reservedT11_100_01 x | reservedT11_101_01 x | reservedT11_110_01 x
  | reservedT11_011_10 x | reservedT11_100_10 x | reservedT11_111_10 x | reservedT11_110_11 x | reservedT11_111_11 x =>
    exact decode_whole (by simp [decodeFirst_wordT11Reserved, decodeT11]) rest
  | ret | reti | dint | eint => exact decode_whole (by simp [decodeFirst_wordT12, decodeT12]) rest
  | reservedT12_1xx x y =>
    have reserved := decodeT12_of_bit11 (w := wordReservedT12 x y) (by simp [wordReservedT12, place])
    exact decode_whole (by simp [decodeFirst_wordReservedT12, reserved]) rest
  | movrr rs rd | cmprr rs rd | zext rs rd | sext rs rd | bswap rs rd | sextw rs rd | mov16pr rs rd =>
    exact decode_whole (by simp [decodeFirst_wordT13, decodeT13]) rest
  | reservedT13_110 x => exact decode_whole (by simp [decodeFirst_wordReservedT13, decodeT13]) rest

end Sys2Proof.Proofs
end

section
/-! PROOFS. The shape of every meaning, said once: which shared operation it is, on what its result depends, and what of
the tables of the spec holds of it. The rules about all instructions are read from it. -/

namespace Sys2Proof.Proofs

open Sys2Proof Sys2Proof.Machine Sys2Proof.Claims

/-! What a value of the state depends on. -/

/-- The value is a function of pc and of what the listed places hold. -/
def DependsOn {α : Type} (ps : List Place) (v : State → α) : Prop :=
  ∀ s t : State, s.pc = t.pc → (∀ p ∈ ps, SameAt s t p) → v s = v t

theorem dependsOn_const {α : Type} (ps : List Place) (c : α) : DependsOn ps fun _ => c := fun _ _ _ _ => rfl

theorem dependsOn_reg {ps : List Place} {r : Reg} (h : .reg r ∈ ps) : DependsOn ps fun s => s.reg r :=
  fun _ _ _ same => same _ h

theorem dependsOn_sp {ps : List Place} (h : .sp ∈ ps) : DependsOn ps fun s => s.sp := fun _ _ _ same => same _ h

theorem dependsOn_ac {ps : List Place} (h : .flag .ac ∈ ps) : DependsOn ps fun s => s.sar.ac :=
  fun _ _ _ same => same _ h

theorem dependsOn_nextPc (ps : List Place) : DependsOn ps fun s => pcPlus cfg.pcUnit s.pc 1 :=
  fun _ _ pc _ => by simp only [pc]

theorem dependsOn_relTarget {n : Nat} (ps : List Place) (a : BitVec n) : DependsOn ps fun s => relTarget s a :=
  fun _ _ pc _ => by simp only [relTarget_eq, pc]

/-- A condition depends on the flags of its line in R33's table. -/
theorem dependsOn_cond (cc : Cond) : DependsOn (flagsOf cc) fun s => condHolds cc s.sar := by
  intro s t _ same
  cases cc <;> simp [flagsOf, SameAt] at same <;> simp [condHolds, same]

theorem DependsOn.mono {α : Type} {ps qs : List Place} {v : State → α} (h : DependsOn ps v) (sub : ps ⊆ qs) :
    DependsOn qs v := fun s t pc same => h s t pc fun p hp => same p (sub hp)

theorem DependsOn.map {α β : Type} {ps : List Place} {u : State → α} (hu : DependsOn ps u) (f : α → β) :
    DependsOn ps fun s => f (u s) := fun s t pc same => congrArg f (hu s t pc same)

theorem DependsOn.map₂ {α β γ : Type} {ps : List Place} {u : State → α} {v : State → β} (hu : DependsOn ps u)
    (hv : DependsOn ps v) (f : α → β → γ) : DependsOn ps fun s => f (u s) (v s) :=
  fun s t pc same => congrArg₂ f (hu s t pc same) (hv s t pc same)

theorem DependsOn.ite {α : Type} {ps : List Place} {b : State → Bool} {u v : State → α} (hb : DependsOn ps b)
    (hu : DependsOn ps u) (hv : DependsOn ps v) : DependsOn ps fun s => if b s then u s else v s := by
  intro s t pc same
  simp only [hb s t pc same, hu s t pc same, hv s t pc same]

theorem dependsOn_regs {α : Type} {ps : List Place} {r q : Reg} (hr : .reg r ∈ ps) (hq : .reg q ∈ ps)
    (f : Word → Word → α) : DependsOn ps fun s => f (s.reg r) (s.reg q) := (dependsOn_reg hr).map₂ (dependsOn_reg hq) f

theorem dependsOn_spReg {α : Type} {ps : List Place} {r : Reg} (hsp : .sp ∈ ps) (hr : .reg r ∈ ps)
    (f : Word → Word → α) : DependsOn ps fun s => f s.sp (s.reg r) := (dependsOn_sp hsp).map₂ (dependsOn_reg hr) f

/-- The value of SAR depends on its seven flags. -/
theorem dependsOn_sarValue : DependsOn (.flag .i :: srArPlaces) fun s => sarValue s.sar := by
  intro s t _ same
  simp [srArPlaces, srPlaces, SameAt] at same
  simp [sarValue, same]

/-! The shapes. -/

/-- All the shapes that the meaning of an instruction can have, each with what the tables of operands, results and
memory accesses say of an instruction of that shape. -/
inductive Shape (i : Instr) : (State → Host.Outcome State Fault Refusal) → Prop
  | reserved (ill : i.wellFormed = false) (word : encode i = [firstWord i]) :
      Shape i fun _ => .fault (.reservedEncoding (firstWord i))
  | reti (isReti : i = .reti) : Shape i fun _ => .fault .interruptUnmodelled
  | jump {target : State → Word} (results : resultsOf i = []) (dep : DependsOn (operandsOf i) target) :
      Shape i fun s => .next (s.setPc (target s))
  | move {rd : Reg} {v : State → Word} {n : Nat} (results : resultsOf i = [.reg rd])
      (dep : DependsOn (operandsOf i) v) : Shape i fun s => .next ((s.setReg rd (v s)).advance n)
  | moveSp {v : State → Word} (results : resultsOf i = [.sp]) (dep : DependsOn (operandsOf i) v) :
      Shape i fun s => .next ((s.setSp (v s)).advance 1)
  | setI {b : Bool} (results : resultsOf i = [.flag .i]) :
      Shape i fun s => .next ((s.setSar { s.sar with i := b }).advance 1)
  | arith {rd : Reg} {f : State → AddResult} (results : resultsOf i = .reg rd :: srArPlaces)
      (dep : DependsOn (operandsOf i) f) : Shape i fun s => .next (s.endArith rd (f s))
  | arithSp {f : State → AddResult} (results : resultsOf i = .sp :: srArPlaces) (dep : DependsOn (operandsOf i) f) :
      Shape i fun s => .next (s.endArithSp (f s))
  | arithSR {rd : Reg} {f : State → AddResult} (results : resultsOf i = .reg rd :: srPlaces)
      (dep : DependsOn (operandsOf i) f) :
      Shape i fun s => .next (((s.setReg rd (f s).r).setSRArith (f s)).advance 1)
  | compare {f : State → AddResult} (results : resultsOf i = srPlaces) (dep : DependsOn (operandsOf i) f) :
      Shape i fun s => .next (s.endCompare (f s))
  | logic {rd : Reg} {v : State → Word} (results : resultsOf i = .reg rd :: srPlaces)
      (dep : DependsOn (operandsOf i) v) : Shape i fun s => .next (s.endLogic rd (v s))
  | loadWord {rd : Reg} {ea : State → Word} {n : Nat} (results : resultsOf i = [.reg rd]) (reads : readsData i = true)
      (word : accessesWord i = true) (dep : DependsOn (operandsOf i) ea) : Shape i fun s => loadWord s rd (ea s) n
  | loadByte {rd : Reg} {ea : State → Word} {n : Nat} {widen : Byte → Word} (results : resultsOf i = [.reg rd])
      (reads : readsData i = true) (dep : DependsOn (operandsOf i) ea) :
      Shape i fun s => continueWith (memRead8 s (ea s)) fun b => (s.setReg rd (widen b)).advance n
  | storeWord {rd : Reg} {ea : State → Word} {n : Nat} (results : resultsOf i = []) (writes : writesData i = true)
      (word : accessesWord i = true) (value : .reg rd ∈ operandsOf i) (dep : DependsOn (operandsOf i) ea) :
      Shape i fun s => storeWord s rd (ea s) n
  | storeByte {rd : Reg} {ea : State → Word} {n : Nat} (results : resultsOf i = []) (writes : writesData i = true)
      (value : .reg rd ∈ operandsOf i) (dep : DependsOn (operandsOf i) ea) :
      Shape i fun s => storeByte s rd (ea s) n
  | push {rd : Reg} (results : resultsOf i = [.sp]) (writes : writesData i = true) (word : accessesWord i = true)
      (value : .reg rd ∈ operandsOf i) (sp : .sp ∈ operandsOf i) : Shape i (execPush rd)
  | call {target : State → Word} (results : resultsOf i = [.sp]) (writes : writesData i = true)
      (word : accessesWord i = true) (sp : .sp ∈ operandsOf i) (dep : DependsOn (operandsOf i) target) :
      Shape i fun s => callTo s (target s)
  | pop {rd : Reg} (results : resultsOf i = [.reg rd, .sp]) (reads : readsData i = true)
      (word : accessesWord i = true) (sp : .sp ∈ operandsOf i) : Shape i (execPop rd)
  | ret (results : resultsOf i = [.sp]) (reads : readsData i = true) (word : accessesWord i = true)
      (sp : .sp ∈ operandsOf i) : Shape i execRet
  | progLoad {rs rd : Reg} (isLoad : i = .mov16pr rs rd) : Shape i (execMov16pr rs rd)

/-! The families whose meaning branches on a condition, and the addresses. -/

theorem shape_branchIf {i : Instr} {cc : Cond} {a : BitVec 9} (results : resultsOf i = [])
    (operands : operandsOf i = flagsOf cc) : Shape i (branchIf cc a) := by
  have jumps : branchIf cc a = fun s =>
      .next (s.setPc (if condHolds cc s.sar then relTarget s a else pcPlus cfg.pcUnit s.pc 1)) := by
    funext s
    unfold branchIf
    split <;> rfl
  rw [jumps]
  refine .jump results ?_
  rw [operands]
  exact (dependsOn_cond cc).ite (dependsOn_relTarget _ a) (dependsOn_nextPc _)

theorem shape_setIf {i : Instr} {cc : Cond} {rd : Reg} (results : resultsOf i = [.reg rd])
    (operands : operandsOf i = flagsOf cc) : Shape i (setIf cc rd) := by
  refine .move (n := 1) results ?_
  rw [operands]
  exact (dependsOn_cond cc).ite (dependsOn_const _ _) (dependsOn_const _ _)

theorem shape_selectIf {i : Instr} {cc : Cond} {rn rs rd : Reg} (results : resultsOf i = [.reg rd])
    (operands : operandsOf i = flagsOf cc ++ [.reg rn, .reg rs]) : Shape i (selectIf cc rn rs rd) := by
  refine .move (n := 1) results ?_
  rw [operands]
  exact ((dependsOn_cond cc).mono (by simp)).ite (dependsOn_reg (by simp)) (dependsOn_reg (by simp))

theorem dependsOn_eaIndexed {ps : List Place} {rn rs : Reg} (hn : .reg rn ∈ ps) (hs : .reg rs ∈ ps) :
    DependsOn ps fun s => eaIndexed s rn rs := dependsOn_regs hn hs (· + ·)

theorem dependsOn_eaOffset {ps : List Place} {rn : Reg} (k : BitVec 6) (hn : .reg rn ∈ ps) :
    DependsOn ps fun s => eaOffset s rn k := (dependsOn_reg hn).map (· + disp6 cfg.disp6 k)

theorem dependsOn_eaStack {ps : List Place} (k : BitVec 8) (hsp : .sp ∈ ps) : DependsOn ps fun s => eaStack s k :=
  (dependsOn_sp hsp).map (· + zext16 k)

/-- `mov Rs, Rd` is a move, or changes only pc where s = d (R215). -/
theorem shape_movrr (rs rd : Reg) : Shape (.movrr rs rd) (execMovrr rs rd) := by
  by_cases same : rs = rd
  · have only_pc : execMovrr rs rd = fun s => .next (s.setPc (pcPlus cfg.pcUnit s.pc 1)) := by
      funext s
      simp only [execMovrr, same, ne_eq, not_true_eq_false, if_false]
      rfl
    rw [only_pc]
    exact .jump (if_pos same) (dependsOn_nextPc _)
  · have moves : execMovrr rs rd = fun s => .next ((s.setReg rd (s.reg rs)).advance 1) := by
      funext s
      rw [execMovrr, if_pos same]
    rw [moves]
    refine .move (if_neg same) (dependsOn_reg ?_)
    simp [operandsOf, same]

/-- Every meaning has one of the shapes. -/
theorem exec_shape (i : Instr) : Shape i (exec i) := by
  cases i with
  | jmprel a => exact .jump rfl (dependsOn_relTarget _ a)
  | callrel a => exact .call rfl rfl rfl (by simp [operandsOf]) (dependsOn_relTarget _ a)
  | breq a | brne a | bruge a | brult a | brlt a | brge a | brugt a | brgt a => exact shape_branchIf rfl rfl
  | seteq rd | setne rd | setuge rd | setult rd | setlt rd | setge rd | setugt rd | setgt rd =>
    exact shape_setIf rfl rfl
  | seleq rn rs rd | selne rn rs rd | seluge rn rs rd | selult rn rs rd | sellt rn rs rd | selge rn rs rd
  | selugt rn rs rd | selgt rn rs rd => exact shape_selectIf rfl rfl
  | addrrr rn rs rd =>
    exact .arith rfl (dependsOn_regs (by simp [operandsOf]) (by simp [operandsOf]) (addC · · false))
  | subrrr rn rs rd => exact .arith rfl (dependsOn_regs (by simp [operandsOf]) (by simp [operandsOf]) subC)
  | adcrrr rn rs rd =>
    exact .arith rfl (.map₂ (dependsOn_regs (by simp [operandsOf]) (by simp [operandsOf]) addC)
      (dependsOn_ac (by simp [operandsOf])) id)
  | subcrrr rn rs rd =>
    exact .arith rfl (.map₂ (dependsOn_regs (by simp [operandsOf]) (by simp [operandsOf]) (fun a b => addC a (~~~b)))
      (dependsOn_ac (by simp [operandsOf])) id)
  | orrrr rn rs rd => exact .logic rfl (dependsOn_regs (by simp [operandsOf]) (by simp [operandsOf]) (· ||| ·))
  | andrrr rn rs rd => exact .logic rfl (dependsOn_regs (by simp [operandsOf]) (by simp [operandsOf]) (· &&& ·))
  | xorrrr rn rs rd => exact .logic rfl (dependsOn_regs (by simp [operandsOf]) (by simp [operandsOf]) (· ^^^ ·))
  | mov16nr rn rs rd =>
    exact .loadWord rfl rfl rfl (dependsOn_eaIndexed (by simp [operandsOf]) (by simp [operandsOf]))
  | mov8znr rn rs rd | mov8snr rn rs rd =>
    exact .loadByte rfl rfl (dependsOn_eaIndexed (by simp [operandsOf]) (by simp [operandsOf]))
  | mov16rn rn rs rd =>
    exact .storeWord rfl rfl rfl (by simp [operandsOf])
      (dependsOn_eaIndexed (by simp [operandsOf]) (by simp [operandsOf]))
  | mov8rn rn rs rd =>
    exact .storeByte rfl rfl (by simp [operandsOf]) (dependsOn_eaIndexed (by simp [operandsOf]) (by simp [operandsOf]))
  | andkr rd k => exact .logic rfl (.map (dependsOn_reg (by simp [operandsOf])) (· &&& zext16 k))
  | orkr rd k => exact .logic rfl (.map (dependsOn_reg (by simp [operandsOf])) (· ||| zext16 k))
  | mov16mr rd rn k => exact .loadWord rfl rfl rfl (dependsOn_eaOffset k (by simp [operandsOf]))
  | movs8mr rd rn k => exact .loadByte rfl rfl (dependsOn_eaOffset k (by simp [operandsOf]))
  | mov16rm rd rn k =>
    exact .storeWord rfl rfl rfl (by simp [operandsOf]) (dependsOn_eaOffset k (by simp [operandsOf]))
  | mov8rm rd rn k => exact .storeByte rfl rfl (by simp [operandsOf]) (dependsOn_eaOffset k (by simp [operandsOf]))
  | movkr rd k | movKr rd k => exact .move rfl (dependsOn_const _ _)
  | cmpkr rd k => exact .compare rfl (.map (dependsOn_reg (by simp [operandsOf])) (subC · (sext16 k)))
  | addkr rd k => exact .arith rfl (.map (dependsOn_reg (by simp [operandsOf])) (addC · (zext16 k) false))
  | subkr rd k => exact .arith rfl (.map (dependsOn_reg (by simp [operandsOf])) (subC · (zext16 k)))
  | mov16qr rd k => exact .loadWord rfl rfl rfl (dependsOn_eaStack k (by simp [operandsOf]))
  | movs8qr rd k => exact .loadByte rfl rfl (dependsOn_eaStack k (by simp [operandsOf]))
  | mov16rq rd k => exact .storeWord rfl rfl rfl (by simp [operandsOf]) (dependsOn_eaStack k (by simp [operandsOf]))
  | mov8rq rd k => exact .storeByte rfl rfl (by simp [operandsOf]) (dependsOn_eaStack k (by simp [operandsOf]))
  | addks k => exact .arithSp rfl (.map (dependsOn_sp (by simp [operandsOf])) (addC · (zext16 k) false))
  | subks k => exact .arithSp rfl (.map (dependsOn_sp (by simp [operandsOf])) (subC · (zext16 k)))
  | push rd => exact .push rfl rfl rfl (by simp [operandsOf]) (by simp [operandsOf])
  | pop rd => exact .pop rfl rfl rfl (by simp [operandsOf])
  | movsr rd => exact .move rfl (dependsOn_sp (by simp [operandsOf]))
  | movrs rd => exact .moveSp rfl (dependsOn_reg (by simp [operandsOf]))
  | addrs rd => exact .arithSp rfl (dependsOn_spReg (by simp [operandsOf]) (by simp [operandsOf]) (addC · · false))
  | subrs rd => exact .arithSp rfl (dependsOn_spReg (by simp [operandsOf]) (by simp [operandsOf]) subC)
  | addsr rd => exact .arith rfl (dependsOn_spReg (by simp [operandsOf]) (by simp [operandsOf]) (addC · · false))
  | subsr rd => exact .arith rfl (dependsOn_spReg (by simp [operandsOf]) (by simp [operandsOf]) subC)
  | jmpreg rd => exact .jump rfl (dependsOn_reg (by simp [operandsOf]))
  | callreg rd => exact .call rfl rfl rfl (by simp [operandsOf]) (dependsOn_reg (by simp [operandsOf]))
  | movSr rd => exact .move rfl dependsOn_sarValue
  | lsr rd => exact .move rfl (.map (dependsOn_reg (by simp [operandsOf])) (· >>> 1))
  | lsl rd => exact .move rfl (.map (dependsOn_reg (by simp [operandsOf])) (· <<< 1))
  | asr rd => exact .move rfl (.map (dependsOn_reg (by simp [operandsOf])) (·.sshiftRight 1))
  | neg rd => exact .arithSR rfl (.map (dependsOn_reg (by simp [operandsOf])) (subC 0#16))
  | not rd => exact .logic rfl (.map (dependsOn_reg (by simp [operandsOf])) (~~~·))
  | mov16ar rd a => exact .loadWord rfl rfl rfl (dependsOn_const _ a)
  | mov8zar rd a | mov8sar rd a => exact .loadByte rfl rfl (dependsOn_const _ a)
  | mov16ra rd a => exact .storeWord rfl rfl rfl (by simp [operandsOf]) (dependsOn_const _ a)
  | mov8ra rd a => exact .storeByte rfl rfl (by simp [operandsOf]) (dependsOn_const _ a)
  | ret => exact .ret rfl rfl rfl (by simp [operandsOf])
  | reti => exact .reti rfl
  | dint | eint => exact .setI rfl
  | movrr rs rd => exact shape_movrr rs rd
  | cmprr rs rd =>
    exact .compare rfl (dependsOn_regs (by simp [operandsOf]) (by simp [operandsOf]) (compareRegs cfg.cmprrOrder))
  | zext rs rd => exact .move rfl (.map (dependsOn_reg (by simp [operandsOf])) fun v => zext16 (v.extractLsb' 0 8))
  | sext rs rd => exact .move rfl (.map (dependsOn_reg (by simp [operandsOf])) fun v => sext16 (v.extractLsb' 0 8))
  | bswap rs rd => exact .move rfl (.map (dependsOn_reg (by simp [operandsOf])) swapBytes)
  | sextw rs rd =>
    exact .move rfl (.map (dependsOn_reg (by simp [operandsOf])) fun v => if v.getLsbD 15 then 0xFFFF#16 else 0#16)
  | mov16pr rs rd => exact .progLoad rfl
  | reservedT5_0111 | reservedT6_1x | reservedT11_010_01 | reservedT11_011_01 | reservedT11_100_01
  | reservedT11_101_01 | reservedT11_110_01 | reservedT11_011_10 | reservedT11_100_10 | reservedT11_111_10
  | reservedT11_110_11 | reservedT11_111_11 | reservedT12_1xx | reservedT13_110 => exact .reserved rfl rfl

end Sys2Proof.Proofs
end

section
/-! PROOFS. The rules about all instructions: what a step leaves unchanged, the canonical form of the memories, which
faults there are. -/

namespace Sys2Proof.Proofs

open Sys2Proof Sys2Proof.Machine Sys2Proof.Claims

/-! Writes at 16-bit addresses, one after the other: an image, or the bytes of a store. -/

/-- The memory with the listed cells written in their order. -/
def writeAll {α : Type} (m : List (Nat × α)) (l : List (Word × α)) : List (Nat × α) :=
  l.foldl (fun m p => Cells.write m p.1.toNat p.2) m

theorem writeAll_wf {α : Type} {m : List (Nat × α)} (h : Cells.wf m) (l : List (Word × α)) :
    Cells.wf (writeAll m l) := by
  induction l generalizing m with
  | nil => exact h
  | cons p l ih => exact ih (Cells.write_word_wf m p.1 p.2 h)

theorem read_writeAll_isSome {α : Type} {m : List (Nat × α)} {a : Nat} (h : (Cells.read m a).isSome)
    (l : List (Word × α)) : (Cells.read (writeAll m l) a).isSome := by
  induction l generalizing m with
  | nil => exact h
  | cons p l ih =>
    refine ih ?_
    rw [Cells.read_write]
    split
    · rfl
    · exact h

theorem nil_wf (α : Type) : Cells.wf ([] : List (Nat × α)) := ⟨List.Pairwise.nil, nofun⟩

/-! What an execution leaves unchanged. -/

/-- All that an instruction leaves unchanged between two states: what its table of results does not name, and memory
unless it is listed as writing it. -/
structure Frame (i : Instr) (s t : State) : Prop where
  prog : t.prog = s.prog
  data : ∃ l : List (Word × Byte), t.data = writeAll s.data l ∧ (writesData i = false → l = [])
  reg : ∀ r, .reg r ∉ resultsOf i → t.reg r = s.reg r
  sp : .sp ∉ resultsOf i → t.sp = s.sp
  flag : ∀ f, .flag f ∉ resultsOf i → t.sar.get f = s.sar.get f

/-- Memory left as it is. -/
theorem no_writes (i : Instr) (m : Memory) :
    ∃ l : List (Word × Byte), m = writeAll m l ∧ (writesData i = false → l = []) := ⟨[], rfl, fun _ => rfl⟩

/-- A byte written by an instruction that is listed as writing memory. -/
theorem writes_byte {i : Instr} (h : writesData i = true) (m : Memory) (ea : Word) (b : Byte) :
    ∃ l : List (Word × Byte), Cells.write m ea.toNat b = writeAll m l ∧ (writesData i = false → l = []) :=
  ⟨[(ea, b)], rfl, fun keeps => by rw [h] at keeps; cases keeps⟩

/-- A word written by an instruction that is listed as writing memory: its two bytes. -/
theorem writes_word {i : Instr} (h : writesData i = true) (m : Memory) (ea v : Word) :
    ∃ l : List (Word × Byte), Memory.writeWord m ea v = writeAll m l ∧ (writesData i = false → l = []) :=
  ⟨[(ea, lowerByte cfg.endian v), (ea + 1, higherByte cfg.endian v)], rfl, fun keeps => by rw [h] at keeps; cases keeps⟩

theorem get_writeSR {f : Flag} (h : .flag f ∉ srPlaces) (x : Sar) (v s c z : Bool) :
    Sar.get { x with v := v, s := s, c := c, z := z } f = x.get f := by
  cases f with
  | i | ac | az => rfl
  | v | s | c | z => simp [srPlaces] at h

theorem get_writeSRAR {f : Flag} (h : .flag f ∉ srArPlaces) (x : Sar) (v s c z ac az : Bool) :
    Sar.get { x with v := v, s := s, c := c, z := z, ac := ac, az := az } f = x.get f := by
  cases f with
  | i => rfl
  | v | s | c | z | ac | az => simp [srArPlaces, srPlaces] at h

theorem Shape.frame {i : Instr} {f : State → Host.Outcome State Fault Refusal} (h : Shape i f) {s t : State}
    (e : f s = .next t) : Frame i s t := by
  cases h with
  | reserved ill word => cases e
  | reti isReti => cases e
  | jump results dep =>
    cases e
    exact ⟨rfl, no_writes i _, fun _ _ => rfl, fun _ => rfl, fun _ _ => rfl⟩
  | move results dep =>
    cases e
    exact ⟨rfl, no_writes i _, fun r hr => by simp_all, fun _ => rfl, fun _ _ => rfl⟩
  | moveSp results dep =>
    cases e
    exact ⟨rfl, no_writes i _, fun _ _ => rfl, fun hsp => by simp_all, fun _ _ => rfl⟩
  | setI results =>
    cases e
    refine ⟨rfl, no_writes i _, fun _ _ => rfl, fun _ => rfl, fun g hg => ?_⟩
    cases g with
    | i => simp [results] at hg
    | v | s | c | z | ac | az => rfl
  | arith results dep =>
    cases e
    exact ⟨rfl, no_writes i _, fun r hr => by simp_all, fun _ => rfl,
      fun g hg => get_writeSRAR (by simp_all : .flag g ∉ srArPlaces) s.sar _ _ _ _ _ _⟩
  | arithSp results dep =>
    cases e
    exact ⟨rfl, no_writes i _, fun _ _ => rfl, fun hsp => by simp_all,
      fun g hg => get_writeSRAR (by simp_all : .flag g ∉ srArPlaces) s.sar _ _ _ _ _ _⟩
  | arithSR results dep =>
    cases e
    exact ⟨rfl, no_writes i _, fun r hr => by simp_all, fun _ => rfl,
      fun g hg => get_writeSR (by simp_all : .flag g ∉ srPlaces) s.sar _ _ _ _⟩
  | compare results dep =>
    cases e
    exact ⟨rfl, no_writes i _, fun _ _ => rfl, fun _ => rfl,
      fun g hg => get_writeSR (by simp_all : .flag g ∉ srPlaces) s.sar _ _ _ _⟩
  | logic results dep =>
    cases e
    exact ⟨rfl, no_writes i _, fun r hr => by simp_all, fun _ => rfl,
      fun g hg => get_writeSR (by simp_all : .flag g ∉ srPlaces) s.sar _ _ _ _⟩
  | loadWord results reads word dep =>
    obtain ⟨v, -, rfl⟩ := continueWith_eq_next.1 e
    exact ⟨rfl, no_writes i _, fun r hr => by simp_all, fun _ => rfl, fun _ _ => rfl⟩
  | loadByte results reads dep =>
    obtain ⟨v, -, rfl⟩ := continueWith_eq_next.1 e
    exact ⟨rfl, no_writes i _, fun r hr => by simp_all, fun _ => rfl, fun _ _ => rfl⟩
  | storeWord results writes word value dep =>
    obtain ⟨-, h⟩ | ⟨-, h⟩ := storeWord_cases s _ _ _ <;> cases e.symm.trans h
    exact ⟨rfl, writes_word writes _ _ _, fun _ _ => rfl, fun _ => rfl, fun _ _ => rfl⟩
  | storeByte results writes value dep =>
    cases e.symm.trans (storeByte_eq s _ _ _)
    exact ⟨rfl, writes_byte writes _ _ _, fun _ _ => rfl, fun _ => rfl, fun _ _ => rfl⟩
  | push results writes word value sp =>
    obtain ⟨v, ok, rfl⟩ := continueWith_eq_next.1 e
    obtain ⟨-, h⟩ | ⟨-, h⟩ := pushWord_cases s _ <;> cases ok.symm.trans h
    exact ⟨rfl, writes_word writes _ _ _, fun _ _ => rfl, fun hsp => by simp_all, fun _ _ => rfl⟩
  | call results writes word sp dep =>
    obtain ⟨-, h⟩ | ⟨-, h⟩ := callTo_cases s _ <;> cases e.symm.trans h
    exact ⟨rfl, writes_word writes _ _ _, fun _ _ => rfl, fun hsp => by simp_all, fun _ _ => rfl⟩
  | pop results reads word sp =>
    obtain ⟨v, ok, rfl⟩ := continueWith_eq_next.1 e
    obtain ⟨-, h⟩ | ⟨-, -, h⟩ | ⟨-, -, -, h⟩ | ⟨-, b0, b1, -, -, h⟩ := popWord_cases s <;> cases ok.symm.trans h
    exact ⟨rfl, no_writes i _, fun r hr => by simp_all, fun hsp => by simp_all, fun _ _ => rfl⟩
  | ret results reads word sp =>
    obtain ⟨v, ok, rfl⟩ := continueWith_eq_next.1 e
    obtain ⟨-, h⟩ | ⟨-, -, h⟩ | ⟨-, -, -, h⟩ | ⟨-, b0, b1, -, -, h⟩ := popWord_cases s <;> cases ok.symm.trans h
    exact ⟨rfl, no_writes i _, fun _ _ => rfl, fun hsp => by simp_all, fun _ _ => rfl⟩
  | progLoad isLoad =>
    subst isLoad
    obtain ⟨v, -, rfl⟩ := continueWith_eq_next.1 e
    exact ⟨rfl, no_writes _ _, fun r hr => by simp_all [resultsOf], fun _ => rfl, fun _ _ => rfl⟩

theorem exec_frame {i : Instr} {s t : State} (e : exec i s = .next t) : Frame i s t := (exec_shape i).frame e

/-! The tables of the model and those of the spec name the same places. -/

/-- `mov Rs, Rd` writes Rd, and nothing where s = d. -/
theorem reg_mem_resultsOf_movrr (rs rd r : Reg) :
    .reg r ∈ resultsOf (.movrr rs rd) ↔ writesPlace (.movrr rs rd) (.reg r) := by
  by_cases same : rs = rd
  · subst same
    simp only [resultsOf, if_true, writesPlace, writesReg, List.not_mem_nil, false_iff, not_and, Option.some.injEq]
    rintro rfl other
    exact other rfl
  · simp only [resultsOf, if_neg same, writesPlace, writesReg, List.mem_singleton, Place.reg.injEq, Option.some.injEq]
    refine ⟨fun h => ⟨h.symm, fun e => ?_⟩, fun h => h.1.symm⟩
    cases e
    exact same rfl

/-- An instruction writes the places of its results. -/
theorem mem_resultsOf (i : Instr) (p : Place) : p ∈ resultsOf i ↔ writesPlace i p := by
  cases p with
  | reg r =>
    cases i with
    | movrr rs rd => exact reg_mem_resultsOf_movrr rs rd r
    | _ => simp [resultsOf, writesPlace, writesReg, srArPlaces, srPlaces, logicPlaces, shiftPlaces, cfg, eq_comm]
  | sp => cases i <;> simp [resultsOf, writesPlace, writesSp, srArPlaces, srPlaces, logicPlaces, shiftPlaces, cfg]
  | byte a => cases i <;> simp [resultsOf, writesPlace, srArPlaces, srPlaces, logicPlaces, shiftPlaces, cfg]
  | flag f =>
    cases f with
    | i => cases i <;> simp [resultsOf, writesPlace, writesI, srArPlaces, srPlaces, logicPlaces, shiftPlaces, cfg]
    | v | s | c | z =>
      cases i <;> simp [resultsOf, writesPlace, writesSR, srArPlaces, srPlaces, logicPlaces, shiftPlaces, cfg]
    | ac | az =>
      cases i <;> simp [resultsOf, writesPlace, writesAR, srArPlaces, srPlaces, logicPlaces, shiftPlaces, cfg]

/-! The faults. -/

/-- Why an execution can end in a fault. -/
inductive FaultCause (i : Instr) (s : State) : Fault → Prop
  | reserved {w : Word} (ill : i.wellFormed = false) (word : encode i = [w]) : FaultCause i s (.reservedEncoding w)
  | misaligned {a : Word} (word : accessesWord i = true) (odd : a.getLsbD 0 = true) :
      FaultCause i s (.misalignedWord a)
  | unmapped {rs rd : Reg} (isLoad : i = .mov16pr rs rd) (unloaded : programWord s (s.reg rs) = none) :
      FaultCause i s (.unmappedProgram (s.reg rs))
  | interrupt (isReti : i = .reti) : FaultCause i s .interruptUnmodelled
  | unwritten {a : Word} (reads : readsData i = true) (unwritten : dataByte s a = none) :
      FaultCause i s (.uninitialisedRead (.byte a))

theorem memRead16_fault {i : Instr} {s : State} {a : Word} {f : Fault} (reads : readsData i = true)
    (word : accessesWord i = true) (e : memRead16 s a = .error f) : FaultCause i s f := by
  obtain ⟨odd, h⟩ | ⟨-, h0, h⟩ | ⟨-, -, h1, h⟩ | ⟨-, b0, b1, -, -, h⟩ := memRead16_cases s a <;> cases e.symm.trans h
  · exact .misaligned word odd
  · exact .unwritten reads h0
  · exact .unwritten reads h1

theorem popWord_fault {i : Instr} {s : State} {f : Fault} (reads : readsData i = true)
    (word : accessesWord i = true) (e : popWord s = .error f) : FaultCause i s f := by
  obtain ⟨odd, h⟩ | ⟨-, h0, h⟩ | ⟨-, -, h1, h⟩ | ⟨-, b0, b1, -, -, h⟩ := popWord_cases s <;> cases e.symm.trans h
  · exact .misaligned word odd
  · exact .unwritten reads h0
  · exact .unwritten reads h1

theorem Shape.fault {i : Instr} {f : State → Host.Outcome State Fault Refusal} (h : Shape i f) {s : State} {g : Fault}
    (e : f s = .fault g) : FaultCause i s g := by
  cases h with
  | reserved ill word =>
    cases e
    exact .reserved ill word
  | reti isReti =>
    cases e
    exact .interrupt isReti
  | jump | move | moveSp | setI | arith | arithSp | arithSR | compare | logic => cases e
  | loadWord results reads word dep => exact memRead16_fault reads word (continueWith_eq_fault.1 e)
  | loadByte results reads dep =>
    have err := continueWith_eq_fault.1 e
    rw [memRead8_eq] at err
    cases h : Cells.read s.data _ with
    | some b => cases err.symm.trans (byteAt_of_some h)
    | none =>
      cases err.symm.trans (byteAt_of_none h)
      exact .unwritten reads h
  | storeWord results writes word value dep =>
    obtain ⟨odd, h⟩ | ⟨-, h⟩ := storeWord_cases s _ _ _ <;> cases e.symm.trans h
    exact .misaligned word odd
  | storeByte results writes value dep => cases e.symm.trans (storeByte_eq s _ _ _)
  | push results writes word value sp =>
    obtain ⟨odd, h⟩ | ⟨-, h⟩ := pushWord_cases s _ <;> cases (continueWith_eq_fault.1 e).symm.trans h
    exact .misaligned word odd
  | call results writes word sp dep =>
    obtain ⟨odd, h⟩ | ⟨-, h⟩ := callTo_cases s _ <;> cases e.symm.trans h
    exact .misaligned word odd
  | pop results reads word sp => exact popWord_fault reads word (continueWith_eq_fault.1 e)
  | ret results reads word sp => exact popWord_fault reads word (continueWith_eq_fault.1 e)
  | progLoad isLoad =>
    have err := continueWith_eq_fault.1 e
    cases h : Cells.read s.prog _ with
    | some w => cases err.symm.trans (progRead_of_some h)
    | none =>
      cases err.symm.trans (progRead_of_none h)
      exact .unmapped isLoad h

theorem Shape.ne_refused {i : Instr} {f : State → Host.Outcome State Fault Refusal} (h : Shape i f) (s : State)
    (r : Refusal) : f s ≠ .refused r := by
  cases h with
  | reserved | reti | jump | move | moveSp | setI | arith | arithSp | arithSR | compare | logic => nofun
  | loadWord | loadByte | storeWord | storeByte | push | call | pop | ret | progLoad => exact continueWith_ne_refused _ _ r

/-! The obligations. -/

/-- Settles O10: a fetched instruction leaves program memory, and writes data memory at 16-bit addresses only. -/
theorem stepKeepsMemoriesCanonical : Obligations.StepKeepsMemoriesCanonical := by
  unfold Obligations.StepKeepsMemoriesCanonical
  rintro s t ⟨dataWf, progWf⟩ e
  obtain ⟨i, -, run⟩ := step_eq_next e
  have frame := exec_frame run
  obtain ⟨l, data, -⟩ := frame.data
  constructor
  · rw [data]
    exact writeAll_wf dataWf l
  · rw [frame.prog]
    exact progWf

/-- Settles O9: no fetch refuses, and no shape of a meaning does. -/
theorem stepNeverRefuses : Obligations.StepNeverRefuses := by
  unfold Obligations.StepNeverRefuses
  intro s r
  rw [step_eq]
  cases fetch s with
  | ok i => exact (exec_shape i).ne_refused s r
  | error f => nofun

/-- Settles O11: both memories are empty after reset. -/
theorem resetMemoriesAreCanonical : Obligations.ResetMemoriesAreCanonical := by
  unfold Obligations.ResetMemoriesAreCanonical
  exact ⟨nil_wf _, nil_wf _⟩

/-- Every register holds zero after reset, the model's choice (log 1). -/
theorem reset_reg (r : Reg) : State.reset.reg r = 0x0000#16 := by
  cases r <;> rfl

/-- Settles O12: the reset state read field by field. -/
theorem resetLeavesTheChosenState : Obligations.ResetLeavesTheChosenState := by
  unfold Obligations.ResetLeavesTheChosenState
  exact ⟨rfl, rfl, reset_reg, rfl, rfl, fun _ => ⟨rfl, rfl⟩⟩

/-- Settles O13: an image is written cell by cell, from an empty memory. -/
theorem launchMemoriesAreCanonical : Obligations.LaunchMemoriesAreCanonical := by
  unfold Obligations.LaunchMemoriesAreCanonical
  intro l
  exact ⟨writeAll_wf (nil_wf _) l.dataImage, writeAll_wf (nil_wf _) l.program⟩

/-- Settles O14: every meaning leaves program memory. -/
theorem stepKeepsProgramMemory : Obligations.StepKeepsProgramMemory := by
  unfold Obligations.StepKeepsProgramMemory
  intro s t e
  obtain ⟨i, -, run⟩ := step_eq_next e
  exact (exec_frame run).prog

/-- A flag that the instruction is not listed as writing is kept. -/
theorem Frame.flag_of_not_writes {i : Instr} {s t : State} (frame : Frame i s t) {f : Flag}
    (keeps : ¬ writesPlace i (.flag f)) : t.sar.get f = s.sar.get f :=
  frame.flag f fun mem => keeps ((mem_resultsOf i _).1 mem)

/-- Settles O15: each flag is kept where its list does not name the instruction. -/
theorem flagsAreWrittenAsListed : Obligations.FlagsAreWrittenAsListed := by
  unfold Obligations.FlagsAreWrittenAsListed
  intro i s t run
  have frame := exec_frame run
  refine ⟨fun sr => ?_, fun ar => ?_, fun noI => ?_⟩
  · have keeps : ¬ writesSR i = true := by simp [sr]
    exact ⟨frame.flag_of_not_writes (f := .v) keeps, frame.flag_of_not_writes (f := .s) keeps,
      frame.flag_of_not_writes (f := .c) keeps, frame.flag_of_not_writes (f := .z) keeps⟩
  · have keeps : ¬ writesAR i = true := by simp [ar]
    exact ⟨frame.flag_of_not_writes (f := .ac) keeps, frame.flag_of_not_writes (f := .az) keeps⟩
  · have keeps : ¬ writesI i = true := by simp [noI]
    exact frame.flag_of_not_writes (f := .i) keeps

/-- Settles O16: SP is a result of exactly the listed instructions. -/
theorem stackPointerIsWrittenAsListed : Obligations.StackPointerIsWrittenAsListed := by
  unfold Obligations.StackPointerIsWrittenAsListed
  intro i s t run keeps
  refine (exec_frame run).sp fun mem => ?_
  have writes : writesSp i = true := (mem_resultsOf i .sp).1 mem
  simp [keeps] at writes

/-- Settles O17: the frame writes no byte for an instruction that is not listed. -/
theorem dataMemoryIsWrittenAsListed : Obligations.DataMemoryIsWrittenAsListed := by
  unfold Obligations.DataMemoryIsWrittenAsListed
  intro i s t run keeps
  obtain ⟨l, data, none⟩ := (exec_frame run).data
  rw [data, none keeps]
  rfl

/-- Settles O18: a register that is a result is the listed destination. -/
theorem registersAreWrittenAsListed : Obligations.RegistersAreWrittenAsListed := by
  unfold Obligations.RegistersAreWrittenAsListed
  intro i s t run r other
  refine (exec_frame run).reg r fun mem => other ?_
  obtain ⟨dest, -⟩ := (mem_resultsOf i (.reg r)).1 mem
  exact dest

/-- Settles O19: writing bytes takes none away. -/
theorem writtenBytesStayWritten : Obligations.WrittenBytesStayWritten := by
  unfold Obligations.WrittenBytesStayWritten
  intro s t a e written
  obtain ⟨i, -, run⟩ := step_eq_next e
  obtain ⟨l, data, -⟩ := (exec_frame run).data
  rw [dataByte, data]
  exact read_writeAll_isSome written l

/-- Settles O20: every fault has one of the five causes. -/
theorem faultsAreRaisedAsListed : Obligations.FaultsAreRaisedAsListed := by
  unfold Obligations.FaultsAreRaisedAsListed
  intro i s f e
  cases (exec_shape i).fault e with
  | reserved ill word => exact ⟨ill, word⟩
  | misaligned word odd => exact ⟨word, odd⟩
  | unmapped isLoad unloaded => exact ⟨⟨_, _, isLoad, rfl⟩, unloaded⟩
  | interrupt isReti => exact isReti
  | unwritten reads unwritten => exact ⟨reads, unwritten⟩

end Sys2Proof.Proofs
end

section
/-! PROOFS. The accesses to data memory by the address: odd, not written, written. Each rule is read from the model's
own lemma that says all an access can do. -/

namespace Sys2Proof.Proofs

open Sys2Proof Sys2Proof.Machine Sys2Proof.Claims

/-! Reads. -/

theorem memRead16_odd {s : State} {a : Word} (odd : a.getLsbD 0 = true) :
    memRead16 s a = .error (.misalignedWord a) := by
  obtain ⟨-, h⟩ | ⟨even, -⟩ | ⟨even, -⟩ | ⟨even, -⟩ := memRead16_cases s a
  · exact h
  all_goals cases odd.symm.trans even

theorem memRead16_written {s : State} {a : Word} {lo hi : Byte} (even : a.getLsbD 0 = false)
    (h0 : dataByte s a = some lo) (h1 : dataByte s (a + 1) = some hi) : memRead16 s a = .ok (hi ++ lo) := by
  unfold dataByte at h0 h1
  simp only [memRead16, wordFault_even even, byteAt_of_some h0, byteAt_of_some h1]
  rfl

theorem memRead16_low_unwritten {s : State} {a : Word} (even : a.getLsbD 0 = false) (h0 : dataByte s a = none) :
    memRead16 s a = .error (.uninitialisedRead (.byte a)) := by
  unfold dataByte at h0
  simp only [memRead16, wordFault_even even, byteAt_of_none h0]

theorem memRead16_high_unwritten {s : State} {a : Word} (even : a.getLsbD 0 = false) (h0 : (dataByte s a).isSome)
    (h1 : dataByte s (a + 1) = none) : memRead16 s a = .error (.uninitialisedRead (.byte (a + 1))) := by
  obtain ⟨lo, h0⟩ := Option.isSome_iff_exists.1 h0
  unfold dataByte at h0 h1
  simp only [memRead16, wordFault_even even, byteAt_of_some h0, byteAt_of_none h1]

theorem memRead8_written {s : State} {a : Word} {b : Byte} (h : dataByte s a = some b) : memRead8 s a = .ok b := by
  rw [memRead8_eq]
  exact byteAt_of_some h

theorem memRead8_unwritten {s : State} {a : Word} (h : dataByte s a = none) :
    memRead8 s a = .error (.uninitialisedRead (.byte a)) := by
  rw [memRead8_eq]
  exact byteAt_of_none h

/-- A read of a word looks at data memory alone. -/
theorem memRead16_congr {s t : State} (h : s.data = t.data) (a : Word) : memRead16 s a = memRead16 t a := by
  simp only [memRead16, h]

theorem memRead8_congr {s t : State} (h : s.data = t.data) (a : Word) : memRead8 s a = memRead8 t a := by
  simp only [memRead8, h]

/-! Stores. -/

theorem storeWord_odd {s : State} {rd : Reg} {ea : Word} {n : Nat} (odd : ea.getLsbD 0 = true) :
    storeWord s rd ea n = .fault (.misalignedWord ea) := by
  obtain ⟨-, h⟩ | ⟨even, -⟩ := storeWord_cases s rd ea n
  · exact h
  · cases odd.symm.trans even

theorem storeWord_even {s : State} {rd : Reg} {ea : Word} {n : Nat} (even : ea.getLsbD 0 = false) :
    storeWord s rd ea n = .next ((s.setData (Memory.writeWord s.data ea (s.reg rd))).advance n) := by
  obtain ⟨odd, -⟩ | ⟨-, h⟩ := storeWord_cases s rd ea n
  · cases odd.symm.trans even
  · exact h

/-! The stack. -/

theorem execPush_odd {s : State} {rd : Reg} (odd : (s.sp - 2).getLsbD 0 = true) :
    execPush rd s = .fault (.misalignedWord (s.sp - 2)) := by
  obtain ⟨-, h⟩ | ⟨even, -⟩ := pushWord_cases s (s.reg rd)
  · rw [execPush, h, continueWith_error]
  · cases odd.symm.trans even

theorem execPush_even {s : State} {rd : Reg} (even : (s.sp - 2).getLsbD 0 = false) :
    execPush rd s =
      .next (((s.setData (Memory.writeWord s.data (s.sp - 2) (s.reg rd))).setSp (s.sp - 2)).advance 1) := by
  obtain ⟨odd, -⟩ | ⟨-, h⟩ := pushWord_cases s (s.reg rd)
  · cases odd.symm.trans even
  · rw [execPush, h, continueWith_ok]

theorem callTo_odd {s : State} {target : Word} (odd : (s.sp - 2).getLsbD 0 = true) :
    callTo s target = .fault (.misalignedWord (s.sp - 2)) := by
  obtain ⟨-, h⟩ | ⟨even, -⟩ := callTo_cases s target
  · exact h
  · cases odd.symm.trans even

theorem callTo_even {s : State} {target : Word} (even : (s.sp - 2).getLsbD 0 = false) :
    callTo s target =
      .next (((s.setData (Memory.writeWord s.data (s.sp - 2) (s.pc + 1))).setSp (s.sp - 2)).setPc target) := by
  obtain ⟨odd, -⟩ | ⟨-, h⟩ := callTo_cases s target
  · cases odd.symm.trans even
  · exact h

/-- `pop` is the read of the word at SP, and then its writes. -/
theorem execPop_eq (rd : Reg) (s : State) :
    execPop rd s = continueWith (memRead16 s s.sp) fun v => ((s.setSp (s.sp + 2)).setReg rd v).advance 1 := by
  unfold execPop popWord
  cases memRead16 s s.sp <;> rfl

/-- `ret` is the read of the word at SP, and then its writes. -/
theorem execRet_eq (s : State) :
    execRet s = continueWith (memRead16 s s.sp) fun v => (s.setSp (s.sp + 2)).setPc v := by
  unfold execRet popWord
  cases memRead16 s s.sp <;> rfl

end Sys2Proof.Proofs
end

section
/-! PROOFS. The checked machine: what it finds unwritten, and that no unwritten value shows. -/

namespace Sys2Proof.Proofs

open Sys2Proof Sys2Proof.Machine Sys2Proof.Claims

/-! The operands of the model are the places that the spec has an instruction read. -/

/-- The flags of a condition are those of its line in R33's table. -/
theorem flag_mem_flagsOf (cc : Cond) (f : Flag) : .flag f ∈ flagsOf cc ↔ conditionReads cc f = true := by
  cases cc <;> cases f <;> simp [flagsOf, conditionReads]

theorem flag_mem_all (f : Flag) : Place.flag f ∈ Place.flag .i :: srArPlaces := by
  cases f <;> decide

theorem reg_not_mem_flagsOf (cc : Cond) (r : Reg) : .reg r ∉ flagsOf cc := by
  cases cc <;> simp [flagsOf]

theorem sp_not_mem_flagsOf (cc : Cond) : .sp ∉ flagsOf cc := by
  cases cc <;> simp [flagsOf]

theorem byte_not_mem_flagsOf (cc : Cond) (a : Word) : .byte a ∉ flagsOf cc := by
  cases cc <;> simp [flagsOf]

/-- `mov Rs, Rd` reads Rs, and nothing where s = d. -/
theorem mem_operandsOf_movrr (rs rd : Reg) (p : Place) :
    p ∈ operandsOf (.movrr rs rd) ↔ readsPlace (.movrr rs rd) p := by
  by_cases same : rs = rd <;> cases p <;>
    simp [operandsOf, readsPlace, readsReg, readsSp, readsFlag, conditionOf, same]

/-- An instruction reads the places of its operands. -/
theorem mem_operandsOf (i : Instr) (p : Place) : p ∈ operandsOf i ↔ readsPlace i p := by
  cases p with
  | reg r =>
    cases i with
    | movrr rs rd => exact mem_operandsOf_movrr rs rd (.reg r)
    | mov16rm rd rn k | mov8rm rd rn k => simp [operandsOf, readsPlace, readsReg, or_comm]
    | _ => simp [operandsOf, readsPlace, readsReg, reg_not_mem_flagsOf, srArPlaces, srPlaces]
  | sp =>
    cases i with
    | movrr rs rd => exact mem_operandsOf_movrr rs rd .sp
    | _ => simp [operandsOf, readsPlace, readsSp, sp_not_mem_flagsOf, srArPlaces, srPlaces]
  | flag f =>
    cases i with
    | movrr rs rd => exact mem_operandsOf_movrr rs rd (.flag f)
    | movSr rd => exact ⟨fun _ => rfl, fun _ => flag_mem_all f⟩
    | _ => simp [operandsOf, readsPlace, readsFlag, conditionOf, flag_mem_flagsOf]
  | byte a =>
    cases i with
    | movrr rs rd => exact mem_operandsOf_movrr rs rd (.byte a)
    | _ => simp [operandsOf, readsPlace, byte_not_mem_flagsOf, srArPlaces, srPlaces]

/-- Settles O59: a checked execution finds the first unwritten operand, or does what `exec` does. -/
theorem unwrittenOperandsFault : Obligations.UnwrittenOperandsFault := by
  unfold Obligations.UnwrittenOperandsFault
  intro k
  refine ⟨fun f err => by rw [checkedStep_eq, err], fun i ok => ?_⟩
  rw [checkedStep_of_fetch ok]
  simp only [← mem_operandsOf, ← mem_resultsOf]
  obtain ⟨p, operand, unwritten, fault⟩ | ⟨written, outcome⟩ := checkedExec_cases i k
  · refine ⟨fun _ => ⟨p, operand, unwritten, fault⟩, fun all => absurd (all p operand) unwritten⟩
  · refine ⟨fun ⟨p, operand, unwritten⟩ => absurd (written p operand) unwritten, fun _ => ⟨fun t run => ?_, fun f run => ?_⟩⟩
    · exact ⟨_, checkedExec_of_written written run, fun p => by rw [List.mem_union_iff, or_comm]⟩
    · obtain ⟨t, h, -⟩ | ⟨g, h, fault⟩ | ⟨r, h, -⟩ := outcome <;> cases run.symm.trans h
      exact fault

/-! Two states that hold the same in some places. -/

/-- pc, both memories and the count of draws are the same, and so is what the places of `P` hold. -/
structure SameOn (P : Place → Prop) (s t : State) : Prop where
  pc : s.pc = t.pc
  data : s.data = t.data
  prog : s.prog = t.prog
  draws : s.draws = t.draws
  places : ∀ p, P p → SameAt s t p

theorem SameOn.mono {P Q : Place → Prop} {s t : State} (h : SameOn P s t) (sub : ∀ p, Q p → P p) : SameOn Q s t :=
  ⟨h.pc, h.data, h.prog, h.draws, fun p hp => h.places p (sub p hp)⟩

/-- What depends on places that are the same is the same. -/
theorem DependsOn.same {α : Type} {ps : List Place} {v : State → α} (dep : DependsOn ps v) {P : Place → Prop}
    {s t : State} (h : SameOn P s t) (sub : ∀ p ∈ ps, P p) : v s = v t :=
  dep s t h.pc fun p hp => h.places p (sub p hp)

theorem sameAt_flag {s t : State} {f : Flag} : SameAt s t (.flag f) ↔ s.sar.get f = t.sar.get f := by
  cases f <;> rfl

section
variable {P : Place → Prop} {s t : State} (h : SameOn P s t)
include h

theorem SameOn.flag {f : Flag} (hf : P (.flag f)) : s.sar.get f = t.sar.get f := sameAt_flag.1 (h.places _ hf)

theorem SameOn.setPc (v : Word) : SameOn P (s.setPc v) (t.setPc v) :=
  ⟨rfl, h.data, h.prog, h.draws, fun p hp => by cases p <;> exact h.places _ hp⟩

theorem SameOn.advance (n : Nat) : SameOn P (s.advance n) (t.advance n) := by
  unfold State.advance
  rw [h.pc]
  exact h.setPc _

theorem SameOn.setDraws (n : Nat) : SameOn P { s with draws := n } { t with draws := n } :=
  ⟨h.pc, h.data, h.prog, rfl, fun p hp => by cases p <;> exact h.places _ hp⟩

theorem SameOn.setData (m : Memory) : SameOn P (s.setData m) (t.setData m) := by
  refine ⟨h.pc, rfl, h.prog, h.draws, fun p hp => ?_⟩
  cases p with
  | byte a => rfl
  | reg r | sp => exact h.places _ hp
  | flag f => exact sameAt_flag.2 (h.flag hp)

theorem SameOn.setReg (rd : Reg) (v : Word) :
    SameOn (fun p => p = .reg rd ∨ P p) (s.setReg rd v) (t.setReg rd v) := by
  refine ⟨h.pc, h.data, h.prog, h.draws, fun p hp => ?_⟩
  cases p with
  | reg r =>
    by_cases dest : r = rd
    · simp only [SameAt, State.setReg_reg, if_pos dest]
    · simp only [SameAt, State.setReg_reg, if_neg dest]
      exact h.places (.reg r) (hp.resolve_left fun e => dest (Place.reg.inj e))
  | sp | byte a => exact h.places _ (hp.resolve_left nofun)
  | flag f => exact sameAt_flag.2 (h.flag (hp.resolve_left nofun))

theorem SameOn.setSp (v : Word) : SameOn (fun p => p = .sp ∨ P p) (s.setSp v) (t.setSp v) := by
  refine ⟨h.pc, h.data, h.prog, h.draws, fun p hp => ?_⟩
  cases p with
  | sp => rfl
  | reg r | byte a => exact h.places _ (hp.resolve_left nofun)
  | flag f => exact sameAt_flag.2 (h.flag (hp.resolve_left nofun))

/-- Flags written: those of `fs` alike, the others kept. -/
theorem SameOn.setSar {x y : Sar} {fs : List Place} (only : ∀ p ∈ fs, ∃ f, p = .flag f)
    (alike : ∀ f, .flag f ∈ fs → x.get f = y.get f)
    (kept : ∀ f, .flag f ∉ fs → x.get f = s.sar.get f ∧ y.get f = t.sar.get f) :
    SameOn (fun p => p ∈ fs ∨ P p) (s.setSar x) (t.setSar y) := by
  refine ⟨h.pc, h.data, h.prog, h.draws, fun p hp => ?_⟩
  cases p with
  | flag f =>
    refine sameAt_flag.2 ?_
    by_cases mem : .flag f ∈ fs
    · exact alike f mem
    · obtain ⟨left, right⟩ := kept f mem
      exact left.trans ((h.flag (hp.resolve_left mem)).trans right.symm)
  | reg r | sp | byte a =>
    refine h.places _ (hp.resolve_left fun mem => ?_)
    obtain ⟨f, e⟩ := only _ mem
    cases e

theorem SameOn.writeSR (v n c z : Bool) :
    SameOn (fun p => p ∈ srPlaces ∨ P p) (s.setSar { s.sar with v := v, s := n, c := c, z := z })
      (t.setSar { t.sar with v := v, s := n, c := c, z := z }) := by
  refine h.setSar (by simp [srPlaces]) (fun f mem => ?_) fun f mem => ⟨get_writeSR mem _ _ _ _ _, get_writeSR mem _ _ _ _ _⟩
  cases f with
  | v | s | c | z => rfl
  | i | ac | az => simp [srPlaces] at mem

theorem SameOn.writeSRAR (v n c z ac az : Bool) :
    SameOn (fun p => p ∈ srArPlaces ∨ P p)
      (s.setSar { s.sar with v := v, s := n, c := c, z := z, ac := ac, az := az })
      (t.setSar { t.sar with v := v, s := n, c := c, z := z, ac := ac, az := az }) := by
  refine h.setSar (by simp [srArPlaces, srPlaces]) (fun f mem => ?_)
    fun f mem => ⟨get_writeSRAR mem _ _ _ _ _ _ _, get_writeSRAR mem _ _ _ _ _ _ _⟩
  cases f with
  | v | s | c | z | ac | az => rfl
  | i => simp [srArPlaces, srPlaces] at mem

theorem SameOn.writeI (b : Bool) :
    SameOn (fun p => p ∈ [Place.flag .i] ∨ P p) (s.setSar { s.sar with i := b }) (t.setSar { t.sar with i := b }) := by
  refine h.setSar (by simp) (fun f mem => ?_) fun f mem => ?_
  · cases f with
    | i => rfl
    | v | s | c | z | ac | az => simp at mem
  · cases f with
    | i => simp at mem
    | v | s | c | z | ac | az => exact ⟨rfl, rfl⟩

end

/-! The ends of instructions, in both states. -/

/-- The same fault, or next states that are related. -/
inductive SameOutcome {σ : Type} (R : σ → σ → Prop) :
    Host.Outcome σ Fault Refusal → Host.Outcome σ Fault Refusal → Prop
  | next {s t : σ} (related : R s t) : SameOutcome R (.next s) (.next t)
  | fault (f : Fault) : SameOutcome R (.fault f) (.fault f)

theorem SameOutcome.of_fault {σ : Type} {R : σ → σ → Prop} {f : Fault} {o : Host.Outcome σ Fault Refusal}
    (h : SameOutcome R (.fault f) o) : o = .fault f := by
  cases h
  rfl

theorem SameOutcome.of_next {σ : Type} {R : σ → σ → Prop} {s : σ} {o : Host.Outcome σ Fault Refusal}
    (h : SameOutcome R (.next s) o) : ∃ t, o = .next t ∧ R s t := by
  cases h with
  | next related => exact ⟨_, rfl, related⟩

theorem sameOutcome_continueWith {α : Type} {P : Place → Prop} {r q : Except Fault α} {k j : α → State} (e : r = q)
    (h : ∀ v, SameOn P (k v) (j v)) : SameOutcome (SameOn P) (continueWith r k) (continueWith q j) := by
  subst e
  cases r with
  | ok v => exact .next (h v)
  | error f => exact .fault f

section
variable {P Q : Place → Prop} {s t : State} (h : SameOn P s t)
include h

theorem SameOn.endMove (rd : Reg) (v : Word) (n : Nat) (hQ : ∀ p, Q p → p ∈ [Place.reg rd] ∨ P p) :
    SameOn Q ((s.setReg rd v).advance n) ((t.setReg rd v).advance n) :=
  ((h.setReg rd v).advance n).mono fun p hp => by simpa using hQ p hp

theorem SameOn.endArith (rd : Reg) (f : AddResult) (hQ : ∀ p, Q p → p ∈ Place.reg rd :: srArPlaces ∨ P p) :
    SameOn Q (s.endArith rd f) (t.endArith rd f) :=
  (((h.setReg rd f.r).writeSRAR f.v f.s f.c f.z f.c f.z).advance 1).mono fun p hp => by
    have := hQ p hp
    rw [List.mem_cons] at this
    tauto

theorem SameOn.endArithSp (f : AddResult) (hQ : ∀ p, Q p → p ∈ Place.sp :: srArPlaces ∨ P p) :
    SameOn Q (s.endArithSp f) (t.endArithSp f) :=
  (((h.setSp f.r).writeSRAR f.v f.s f.c f.z f.c f.z).advance 1).mono fun p hp => by
    have := hQ p hp
    rw [List.mem_cons] at this
    tauto

theorem SameOn.endArithSR (rd : Reg) (f : AddResult) (hQ : ∀ p, Q p → p ∈ Place.reg rd :: srPlaces ∨ P p) :
    SameOn Q (((s.setReg rd f.r).setSRArith f).advance 1) (((t.setReg rd f.r).setSRArith f).advance 1) :=
  (((h.setReg rd f.r).writeSR f.v f.s f.c f.z).advance 1).mono fun p hp => by
    have := hQ p hp
    rw [List.mem_cons] at this
    tauto

theorem SameOn.endCompare (f : AddResult) (hQ : ∀ p, Q p → p ∈ srPlaces ∨ P p) :
    SameOn Q (s.endCompare f) (t.endCompare f) := ((h.writeSR f.v f.s f.c f.z).advance 1).mono hQ

/-- The draws are the same, since as many have been made (log 18). -/
theorem SameOn.endLogic (rd : Reg) (r : Word) (hQ : ∀ p, Q p → p ∈ Place.reg rd :: srPlaces ∨ P p) :
    SameOn Q (s.endLogic rd r) (t.endLogic rd r) := by
  have draws := h.draws
  have sar := (h.setReg rd r).writeSR (Config.freeBit (s.draws + 1)) (r.getLsbD 15) (Config.freeBit s.draws)
    (decide (r = 0x0000#16))
  have ends := ((sar.setDraws (s.draws + 2)).advance 1).mono (Q := Q) fun p hp => by
    have := hQ p hp
    rw [List.mem_cons] at this
    tauto
  unfold State.endLogic State.setSRLogic
  simp only [cfg, State.setReg_draws, ← draws]
  exact ends

end

/-- Every meaning does the same in two states that are the same in its operands: what it writes is then the same too. -/
theorem Shape.same {i : Instr} {f : State → Host.Outcome State Fault Refusal} (shape : Shape i f) {P : Place → Prop}
    {s t : State} (h : SameOn P s t) (operands : ∀ p ∈ operandsOf i, P p) :
    SameOutcome (SameOn fun p => p ∈ resultsOf i ∨ P p) (f s) (f t) := by
  cases shape with
  | reserved | reti => exact .fault _
  | jump results dep =>
    simp only [results, dep.same h operands]
    exact .next <| (h.setPc _).mono (by simp)
  | move results dep =>
    simp only [results, dep.same h operands]
    exact .next <| h.endMove _ _ _ fun _ => id
  | moveSp results dep =>
    simp only [results, dep.same h operands]
    exact .next <| ((h.setSp _).advance 1).mono (by simp)
  | setI results =>
    simp only [results]
    exact .next <| (h.writeI _).advance 1
  | arith results dep =>
    simp only [results, dep.same h operands]
    exact .next <| h.endArith _ _ fun _ => id
  | arithSp results dep =>
    simp only [results, dep.same h operands]
    exact .next <| h.endArithSp _ fun _ => id
  | arithSR results dep =>
    simp only [results, dep.same h operands]
    exact .next <| h.endArithSR _ _ fun _ => id
  | compare results dep =>
    simp only [results, dep.same h operands]
    exact .next <| h.endCompare _ fun _ => id
  | logic results dep =>
    simp only [results, dep.same h operands]
    exact .next <| h.endLogic _ _ fun _ => id
  | loadWord results reads word dep =>
    simp only [results, dep.same h operands]
    exact sameOutcome_continueWith (memRead16_congr h.data _) fun v => h.endMove _ v _ fun _ => id
  | loadByte results reads dep =>
    simp only [results, dep.same h operands]
    exact sameOutcome_continueWith (memRead8_congr h.data _) fun b => h.endMove _ _ _ fun _ => id
  | @storeWord rd ea n results writes word value dep =>
    have value : s.reg rd = t.reg rd := h.places (.reg rd) (operands _ value)
    simp only [results, dep.same h operands]
    cases parity : (ea t).getLsbD 0 with
    | true =>
      rw [storeWord_odd parity, storeWord_odd parity]
      exact .fault _
    | false =>
      rw [storeWord_even parity, storeWord_even parity, h.data, value]
      exact .next <| ((h.setData _).advance _).mono (by simp)
  | @storeByte rd ea n results writes value dep =>
    have value : s.reg rd = t.reg rd := h.places (.reg rd) (operands _ value)
    simp only [results, dep.same h operands]
    rw [storeByte_eq, storeByte_eq, h.data, value]
    exact .next <| ((h.setData _).advance _).mono (by simp)
  | @push rd results writes word value sp =>
    have value : s.reg rd = t.reg rd := h.places (.reg rd) (operands _ value)
    have sp : s.sp = t.sp := h.places .sp (operands _ sp)
    cases parity : (t.sp - 2).getLsbD 0 with
    | true =>
      rw [execPush_odd (sp ▸ parity), execPush_odd parity, sp]
      exact .fault _
    | false =>
      rw [execPush_even (sp ▸ parity), execPush_even parity, sp, h.data, value]
      exact .next <| (((h.setData _).setSp _).advance 1).mono (by simp [results])
  | @call target results writes word sp dep =>
    have sp : s.sp = t.sp := h.places .sp (operands _ sp)
    simp only [results, dep.same h operands]
    cases parity : (t.sp - 2).getLsbD 0 with
    | true =>
      rw [callTo_odd (sp ▸ parity), callTo_odd parity, sp]
      exact .fault _
    | false =>
      rw [callTo_even (sp ▸ parity), callTo_even parity, sp, h.data, h.pc]
      exact .next <| (((h.setData _).setSp _).setPc _).mono (by simp)
  | pop results reads word sp =>
    have sp : s.sp = t.sp := h.places .sp (operands _ sp)
    rw [execPop_eq, execPop_eq, sp]
    exact sameOutcome_continueWith (memRead16_congr h.data _) fun v =>
      (((h.setSp _).setReg _ v).advance 1).mono (by simp [results, or_assoc])
  | ret results reads word sp =>
    have sp : s.sp = t.sp := h.places .sp (operands _ sp)
    rw [execRet_eq, execRet_eq, sp]
    exact sameOutcome_continueWith (memRead16_congr h.data _) fun v =>
      ((h.setSp _).setPc v).mono (by simp [results])
  | @progLoad rs rd isLoad =>
    subst isLoad
    have address : s.reg rs = t.reg rs := h.places (.reg rs) (operands _ (by simp [operandsOf]))
    exact sameOutcome_continueWith (by rw [h.prog, address]) fun w => h.endMove rd w 1 fun _ => id

/-! Steps and runs of the checked machine. -/

theorem sameWhereWritten_iff {k j : Tracked} :
    SameWhereWritten k j ↔ k.written = j.written ∧ SameOn (· ∈ k.written) k.state j.state :=
  ⟨fun ⟨written, pc, data, prog, draws, places⟩ => ⟨written, pc, data, prog, draws, places⟩,
    fun ⟨written, pc, data, prog, draws, places⟩ => ⟨written, pc, data, prog, draws, places⟩⟩

theorem checkedExec_same (i : Instr) {k j : Tracked} (h : SameWhereWritten k j) :
    SameOutcome SameWhereWritten (checkedExec i k) (checkedExec i j) := by
  obtain ⟨written, same⟩ := sameWhereWritten_iff.1 h
  have operand : j.unwrittenOperand i = k.unwrittenOperand i := by simp only [Tracked.unwrittenOperand, written]
  unfold checkedExec
  rw [operand]
  cases unwritten : k.unwrittenOperand i with
  | some p => exact .fault _
  | none =>
    have outcome := (exec_shape i).same same (unwrittenOperand_eq_none.1 unwritten)
    generalize exec i k.state = left, exec i j.state = right at outcome
    cases outcome with
    | fault f => exact .fault f
    | next related => exact .next (sameWhereWritten_iff.2 ⟨by rw [written], related.mono (by simp)⟩)

theorem checkedStep_same {k j : Tracked} (h : SameWhereWritten k j) :
    SameOutcome SameWhereWritten (checkedStep k) (checkedStep j) := by
  obtain ⟨-, same⟩ := sameWhereWritten_iff.1 h
  have fetched : fetch j.state = fetch k.state := by simp only [fetch, same.pc, same.prog]
  rw [checkedStep_eq, checkedStep_eq, fetched]
  cases fetch k.state with
  | ok i => exact checkedExec_same i h
  | error f => exact .fault f

theorem runTo_same (endPc : Word) (fuel : Nat) {k j : Tracked} (h : SameWhereWritten k j) :
    SameResult (runTo endPc fuel k) (runTo endPc fuel j) := by
  obtain ⟨-, same⟩ := sameWhereWritten_iff.1 h
  induction fuel generalizing k j with
  | zero =>
    unfold runTo
    rw [same.pc]
    split <;> exact h
  | succ n ih =>
    unfold runTo
    rw [same.pc]
    split
    · exact h
    · have step := checkedStep_same h
      generalize checkedStep k = left, checkedStep j = right at step
      cases step with
      | fault f => exact ⟨rfl, h⟩
      | next related => exact ih related (sameWhereWritten_iff.1 related).2

/-- Settles O60: a step looks at written places only, and a run is made of steps. -/
theorem unwrittenValuesNeverShow : Obligations.UnwrittenValuesNeverShow := by
  unfold Obligations.UnwrittenValuesNeverShow
  intro k j h
  have step := checkedStep_same h
  refine ⟨fun f fault => ?_, fun k' next => ?_, fun endPc fuel => runTo_same endPc fuel h⟩
  · rw [fault] at step
    exact step.of_fault
  · rw [next] at step
    exact step.of_next

end Sys2Proof.Proofs
end

section
/-! PROOFS. The family 30_encoding.md: every first word, its reserved blocks, its unused bits and its length. The fixed
bits of a format are a pattern; what the tables of R100, R101 and R107 say of a word is what they say of its pattern. -/

namespace Sys2Proof.Proofs

open Sys2Proof Sys2Proof.Machine Sys2Proof.Claims

/-! Masks and patterns. -/

/-- A masked word compared with a value, bit by bit. -/
theorem mask_eq_iff (w m v : Word) : w &&& m = v ↔ ∀ n < 16, (w.getLsbD n && m.getLsbD n) = v.getLsbD n := by
  refine ⟨fun h n _ => by rw [← h, BitVec.getLsbD_and], fun h => ?_⟩
  apply BitVec.eq_of_getLsbD_eq
  intro n hn
  rw [BitVec.getLsbD_and]
  exact h n hn

theorem forall_lt_sixteen (p : Nat → Prop) : (∀ n < 16, p n) ↔
    p 15 ∧ p 14 ∧ p 13 ∧ p 12 ∧ p 11 ∧ p 10 ∧ p 9 ∧ p 8 ∧ p 7 ∧ p 6 ∧ p 5 ∧ p 4 ∧ p 3 ∧ p 2 ∧ p 1 ∧ p 0 := by
  constructor
  · intro h
    simp [h]
  · intro h n hn
    interval_cases n <;> tauto

/-- The masks and matches that the tables of R100, R101 and R107 test a first word with. -/
def tableMasks : List (Word × Word) :=
  reservedMasks ++ [(0xF180#16, 0x0180#16), (0xF100#16, 0xC000#16), (0xF180#16, 0x0100#16), (0xF180#16, 0x0080#16),
    (0xF180#16, 0x0000#16), (0xFC00#16, 0x3000#16), (0xFC00#16, 0x3800#16), (0xFC00#16, 0x3C00#16),
    (0xF1E0#16, 0x0160#16)]

/-- Bits `v` under the mask `m` settle whether a word has the match `p.2` under `p.1`: `m` covers `p.1`, or a bit of
both masks differs. -/
def settles (m v : Word) (p : Word × Word) : Bool := p.1 &&& m == p.1 || v &&& p.1 != p.2 &&& m

/-- Bits under a mask settle every test of the tables. -/
def settlesAll (m v : Word) : Bool := tableMasks.all (settles m v)

theorem mask_iff_of_settles {w m v : Word} {p : Word × Word} (pattern : w &&& m = v) (h : settles m v p = true) :
    w &&& p.1 = p.2 ↔ v &&& p.1 = p.2 := by
  have both : v &&& p.1 = (w &&& p.1) &&& m := by rw [← pattern, BitVec.and_assoc, BitVec.and_comm m, ← BitVec.and_assoc]
  simp only [settles, Bool.or_eq_true, beq_iff_eq, bne_iff_ne] at h
  obtain covers | differs := h
  · rw [both, BitVec.and_assoc, covers]
  · refine ⟨fun e => absurd (by rw [both, e]) differs, fun e => absurd ?_ differs⟩
    rw [both] at e
    rw [both, ← e, BitVec.and_assoc (w &&& p.1), BitVec.and_self]

section
variable {w m v : Word} (pattern : w &&& m = v) (all : settlesAll m v = true)
include pattern all

theorem mask_iff_of_settlesAll (p : Word × Word) (mem : p ∈ tableMasks) : w &&& p.1 = p.2 ↔ v &&& p.1 = p.2 :=
  mask_iff_of_settles pattern (List.all_eq_true.1 all p mem)

theorem isReserved_of_pattern : isReserved w = isReserved v := by
  unfold isReserved
  rw [Bool.eq_iff_iff, List.any_eq_true, List.any_eq_true]
  refine exists_congr fun p => and_congr_right fun mem => ?_
  rw [beq_iff_eq, beq_iff_eq]
  exact mask_iff_of_settlesAll pattern all p (List.mem_append_left _ mem)

theorem unusedBits_of_pattern : unusedBits w = unusedBits v := by
  have test := mask_iff_of_settlesAll pattern all
  simp only [unusedBits, isReserved_of_pattern pattern all, test (0xF180#16, 0x0180#16) (by decide),
    test (0xF100#16, 0xC000#16) (by decide), test (0xF180#16, 0x0100#16) (by decide),
    test (0xF180#16, 0x0080#16) (by decide), test (0xF180#16, 0x0000#16) (by decide),
    test (0xFC00#16, 0x3000#16) (by decide), test (0xFC00#16, 0x3800#16) (by decide),
    test (0xFC00#16, 0x3C00#16) (by decide)]

theorem takesSecondWord_of_pattern (other : v &&& 0xF1E0#16 ≠ 0x0160#16) : takesSecondWord w = false := by
  have test := mask_iff_of_settlesAll pattern all (0xF1E0#16, 0x0160#16) (by decide)
  simp only [takesSecondWord, test, other, false_and, decide_false]

end

/-! What a first word decodes to. -/

/-- The facts about a first word and what it decodes to: encoding gives the word back but for its unused bits, the
reserved blocks are those of the table, and the words are as many as the first word says. -/
inductive Classified (w : Word) : FirstWord → Prop
  | whole {i : Instr} (word : encode i = [w &&& ~~~unusedBits w]) (reserved : i.wellFormed = !isReserved w)
      (short : takesSecondWord w = false) : Classified w (.whole i)
  | wide {op : WideOp} {rd : Reg} (word : ∀ w2, encode (op.instr rd w2) = [w &&& ~~~unusedBits w, w2])
      (reserved : isReserved w = false) (long : takesSecondWord w = true) : Classified w (.wide op rd)

/-- A word of a pattern that takes no second word, by what its pattern says of it. -/
theorem classified_of_pattern {w m v u : Word} {i : Instr} {b : Bool} (pattern : w &&& m = v)
    (all : settlesAll m v = true) (table : unusedBits v = u ∧ isReserved v = b ∧ v &&& 0xF1E0#16 ≠ 0x0160#16)
    (word : encode i = [w &&& ~~~u]) (legal : i.wellFormed = !b) : Classified w (.whole i) := by
  obtain ⟨unused, reserved, other⟩ := table
  refine .whole ?_ ?_ (takesSecondWord_of_pattern pattern all other)
  · rw [unusedBits_of_pattern pattern all, unused, word]
  · rw [isReserved_of_pattern pattern all, reserved, legal]

/-! The formats without a reserved block: their leading bits are the pattern. -/

theorem encode_decodeT1 (w : Word) :
    encode (decodeT1 w) = [wordT1 (w.extractLsb' 12 1) (w.extractLsb' 0 12)] ∧
      (decodeT1 w).wellFormed = true := by
  unfold decodeT1
  split <;> simp [encode, Instr.wellFormed, *]

theorem classified_T1 {w : Word} (h15 : w.getLsbD 15 = true) (h14 : w.getLsbD 14 = true) (h13 : w.getLsbD 13 = true) :
    Classified w (.whole (decodeT1 w)) := by
  obtain ⟨word, legal⟩ := encode_decodeT1 w
  have pattern : w &&& 0xE000#16 = 0xE000#16 := by
    simp only [mask_eq_iff, forall_lt_sixteen, h15, h14, h13]
    simp
  refine classified_of_pattern pattern (by decide) (table := ⟨(by decide : _ = 0x0000#16), rfl, by decide⟩) ?_ legal
  rw [word, List.cons.injEq]
  refine ⟨BitVec.eq_of_getLsbD_eq fun n hn => ?_, rfl⟩
  simp only [wordT1, place]
  simp at h15 h14 h13
  interval_cases n <;> simp [h15, h14, h13]

theorem encode_decodeT2 (w : Word) :
    encode (decodeT2 w) = [wordT2 (w.extractLsb' 9 3) (w.extractLsb' 0 9)] ∧
      (decodeT2 w).wellFormed = true := by
  unfold decodeT2
  split <;> simp [encode, Instr.wellFormed, *]

theorem classified_T2 {w : Word} (h15 : w.getLsbD 15 = true) (h14 : w.getLsbD 14 = true) (h13 : w.getLsbD 13 = false)
    (h12 : w.getLsbD 12 = true) :
    Classified w (.whole (decodeT2 w)) := by
  obtain ⟨word, legal⟩ := encode_decodeT2 w
  have pattern : w &&& 0xF000#16 = 0xD000#16 := by
    simp only [mask_eq_iff, forall_lt_sixteen, h15, h14, h13, h12]
    simp
  refine classified_of_pattern pattern (by decide) (table := ⟨(by decide : _ = 0x0000#16), rfl, by decide⟩) ?_ legal
  rw [word, List.cons.injEq]
  refine ⟨BitVec.eq_of_getLsbD_eq fun n hn => ?_, rfl⟩
  simp only [wordT2, place]
  simp at h15 h14 h13 h12
  interval_cases n <;> simp [h15, h14, h13, h12]

theorem encode_decodeT10 (w : Word) :
    encode (decodeT10 w) = [wordT10 (w.extractLsb' 11 1) (w.extractLsb' 0 8)] ∧
      (decodeT10 w).wellFormed = true := by
  unfold decodeT10
  split <;> simp [encode, Instr.wellFormed, *]

theorem classified_T10 {w : Word} (h15 : w.getLsbD 15 = true) (h14 : w.getLsbD 14 = true) (h13 : w.getLsbD 13 = false)
    (h12 : w.getLsbD 12 = false) (h8 : w.getLsbD 8 = false) :
    Classified w (.whole (decodeT10 w)) := by
  obtain ⟨word, legal⟩ := encode_decodeT10 w
  have pattern : w &&& 0xF100#16 = 0xC000#16 := by
    simp only [mask_eq_iff, forall_lt_sixteen, h15, h14, h13, h12, h8]
    simp
  refine classified_of_pattern pattern (by decide) (table := ⟨(by decide : _ = 0x0600#16), rfl, by decide⟩) ?_ legal
  rw [word, List.cons.injEq]
  refine ⟨BitVec.eq_of_getLsbD_eq fun n hn => ?_, rfl⟩
  simp only [wordT10, place]
  simp at h15 h14 h13 h12 h8
  interval_cases n <;> simp [h15, h14, h13, h12, h8]

theorem encode_decodeT7 (w : Word) :
    encode (decodeT7 w) = [wordT7 (w.extractLsb' 12 2) (regAt w 9) (regAt w 6) (w.extractLsb' 0 6)] ∧
      (decodeT7 w).wellFormed = true := by
  unfold decodeT7
  split <;> simp [encode, Instr.wellFormed, *]

theorem classified_T7 {w : Word} (h15 : w.getLsbD 15 = true) (h14 : w.getLsbD 14 = false) :
    Classified w (.whole (decodeT7 w)) := by
  obtain ⟨word, legal⟩ := encode_decodeT7 w
  have pattern : w &&& 0xC000#16 = 0x8000#16 := by
    simp only [mask_eq_iff, forall_lt_sixteen, h15, h14]
    simp
  refine classified_of_pattern pattern (by decide) (table := ⟨(by decide : _ = 0x0000#16), rfl, by decide⟩) ?_ legal
  rw [word, List.cons.injEq]
  refine ⟨BitVec.eq_of_getLsbD_eq fun n hn => ?_, rfl⟩
  simp only [wordT7, place, regAt_bits]
  simp at h15 h14
  interval_cases n <;> simp [h15, h14]

theorem encode_decodeT8 (w : Word) :
    encode (decodeT8 w) = [wordT8 (w.extractLsb' 12 2) (regAt w 9) (w.extractLsb' 0 8)] ∧
      (decodeT8 w).wellFormed = true := by
  unfold decodeT8
  split <;> simp [encode, Instr.wellFormed, *]

theorem classified_T8 {w : Word} (h15 : w.getLsbD 15 = false) (h14 : w.getLsbD 14 = true) (h8 : w.getLsbD 8 = true) :
    Classified w (.whole (decodeT8 w)) := by
  obtain ⟨word, legal⟩ := encode_decodeT8 w
  have pattern : w &&& 0xC100#16 = 0x4100#16 := by
    simp only [mask_eq_iff, forall_lt_sixteen, h15, h14, h8]
    simp
  refine classified_of_pattern pattern (by decide) (table := ⟨(by decide : _ = 0x0000#16), rfl, by decide⟩) ?_ legal
  rw [word, List.cons.injEq]
  refine ⟨BitVec.eq_of_getLsbD_eq fun n hn => ?_, rfl⟩
  simp only [wordT8, place, regAt_bits]
  simp at h15 h14 h8
  interval_cases n <;> simp [h15, h14, h8]

theorem encode_decodeT9 (w : Word) :
    encode (decodeT9 w) = [wordT9 (w.extractLsb' 12 2) (regAt w 9) (w.extractLsb' 0 8)] ∧
      (decodeT9 w).wellFormed = true := by
  unfold decodeT9
  split <;> simp [encode, Instr.wellFormed, *]

theorem classified_T9 {w : Word} (h15 : w.getLsbD 15 = false) (h14 : w.getLsbD 14 = true) (h8 : w.getLsbD 8 = false) :
    Classified w (.whole (decodeT9 w)) := by
  obtain ⟨word, legal⟩ := encode_decodeT9 w
  have pattern : w &&& 0xC100#16 = 0x4000#16 := by
    simp only [mask_eq_iff, forall_lt_sixteen, h15, h14, h8]
    simp
  refine classified_of_pattern pattern (by decide) (table := ⟨(by decide : _ = 0x0000#16), rfl, by decide⟩) ?_ legal
  rw [word, List.cons.injEq]
  refine ⟨BitVec.eq_of_getLsbD_eq fun n hn => ?_, rfl⟩
  simp only [wordT9, place, regAt_bits]
  simp at h15 h14 h8
  interval_cases n <;> simp [h15, h14, h8]

theorem encode_decodeT4 (w : Word) :
    encode (decodeT4 w) = [wordT4 (w.extractLsb' 9 3) (regAt w 6) (regAt w 3) (regAt w 0)] ∧
      (decodeT4 w).wellFormed = true := by
  unfold decodeT4
  split <;> simp [encode, Instr.wellFormed, *]

theorem classified_T4 {w : Word} (h15 : w.getLsbD 15 = false) (h14 : w.getLsbD 14 = false) (h13 : w.getLsbD 13 = false)
    (h12 : w.getLsbD 12 = true) :
    Classified w (.whole (decodeT4 w)) := by
  obtain ⟨word, legal⟩ := encode_decodeT4 w
  have pattern : w &&& 0xF000#16 = 0x1000#16 := by
    simp only [mask_eq_iff, forall_lt_sixteen, h15, h14, h13, h12]
    simp
  refine classified_of_pattern pattern (by decide) (table := ⟨(by decide : _ = 0x0000#16), rfl, by decide⟩) ?_ legal
  rw [word, List.cons.injEq]
  refine ⟨BitVec.eq_of_getLsbD_eq fun n hn => ?_, rfl⟩
  simp only [wordT4, place, regAt_bits]
  simp at h15 h14 h13 h12
  interval_cases n <;> simp [h15, h14, h13, h12]

theorem encode_decodeT3 (w : Word) :
    encode (decodeT3 w) = [wordT3 (w.extractLsb' 9 3) (regAt w 0)] ∧
      (decodeT3 w).wellFormed = true := by
  unfold decodeT3
  split <;> simp [encode, Instr.wellFormed, *]

theorem classified_T3 {w : Word} (h15 : w.getLsbD 15 = false) (h14 : w.getLsbD 14 = false) (h13 : w.getLsbD 13 = false)
    (h12 : w.getLsbD 12 = false) (h8 : w.getLsbD 8 = true) (h7 : w.getLsbD 7 = true) :
    Classified w (.whole (decodeT3 w)) := by
  obtain ⟨word, legal⟩ := encode_decodeT3 w
  have pattern : w &&& 0xF180#16 = 0x0180#16 := by
    simp only [mask_eq_iff, forall_lt_sixteen, h15, h14, h13, h12, h8, h7]
    simp
  refine classified_of_pattern pattern (by decide) (table := ⟨(by decide : _ = 0x0078#16), rfl, by decide⟩) ?_ legal
  rw [word, List.cons.injEq]
  refine ⟨BitVec.eq_of_getLsbD_eq fun n hn => ?_, rfl⟩
  simp only [wordT3, place, regAt_bits]
  simp at h15 h14 h13 h12 h8 h7
  interval_cases n <;> simp [h15, h14, h13, h12, h8, h7]

/-! The formats with reserved blocks: the bits of the operation belong to the pattern. -/

theorem encode_decodeT6 {w : Word} (h7 : w.getLsbD 7 = false) :
    encode (decodeT6 w) = [wordT6 (w.extractLsb' 6 2) (regAt w 9) (w.extractLsb' 0 6)] ∧
      (decodeT6 w).wellFormed = true := by
  have op : w.extractLsb' 6 2 = 0b00#2 ∨ w.extractLsb' 6 2 = 0b01#2 := by
    cases h6 : w.getLsbD 6 <;> simp only [extract2_eq, Nat.reduceAdd, h7, h6] <;> decide
  obtain op | op := op <;> simp [decodeT6, op, encode, Instr.wellFormed]

theorem classified_T6 {w : Word} (h15 : w.getLsbD 15 = true) (h14 : w.getLsbD 14 = true) (h13 : w.getLsbD 13 = false)
    (h12 : w.getLsbD 12 = false) (h8 : w.getLsbD 8 = true) : Classified w (.whole (decodeT6 w)) := by
  cases h7 : w.getLsbD 7 with
  | true =>
    have pattern : w &&& 0xF180#16 = 0xC180#16 := by
      simp only [mask_eq_iff, forall_lt_sixteen, h15, h14, h13, h12, h8, h7]
      simp
    rw [decodeT6_of_bit7 h7]
    refine classified_of_pattern pattern (by decide) (table := ⟨(by decide : _ = 0x0000#16), rfl, by decide⟩) ?_ rfl
    rw [encode, List.cons.injEq]
    refine ⟨BitVec.eq_of_getLsbD_eq fun n hn => ?_, rfl⟩
    simp only [wordReservedT6, place]
    simp at h15 h14 h13 h12 h8 h7
    interval_cases n <;> simp [h15, h14, h13, h12, h8, h7]
  | false =>
    obtain ⟨word, legal⟩ := encode_decodeT6 h7
    have pattern : w &&& 0xF180#16 = 0xC100#16 := by
      simp only [mask_eq_iff, forall_lt_sixteen, h15, h14, h13, h12, h8, h7]
      simp
    refine classified_of_pattern pattern (by decide) (table := ⟨(by decide : _ = 0x0000#16), rfl, by decide⟩) ?_ legal
    rw [word, List.cons.injEq]
    refine ⟨BitVec.eq_of_getLsbD_eq fun n hn => ?_, rfl⟩
    simp only [wordT6, place, regAt_bits]
    simp at h15 h14 h13 h12 h8
    interval_cases n <;> simp [h15, h14, h13, h12, h8]

theorem encode_decodeT12 {w : Word} (h11 : w.getLsbD 11 = false) :
    encode (decodeT12 w) = [wordT12 (w.extractLsb' 9 3)] ∧ (decodeT12 w).wellFormed = true := by
  have op : w.extractLsb' 9 3 = 0b000#3 ∨ w.extractLsb' 9 3 = 0b001#3 ∨ w.extractLsb' 9 3 = 0b010#3 ∨
      w.extractLsb' 9 3 = 0b011#3 := by
    cases h10 : w.getLsbD 10 <;> cases h9 : w.getLsbD 9 <;>
      simp only [extract3_eq, Nat.reduceAdd, h11, h10, h9] <;> decide
  obtain op | op | op | op := op <;> simp [decodeT12, op, encode, Instr.wellFormed]

theorem classified_T12 {w : Word} (h15 : w.getLsbD 15 = false) (h14 : w.getLsbD 14 = false) (h13 : w.getLsbD 13 = false)
    (h12 : w.getLsbD 12 = false) (h8 : w.getLsbD 8 = false) (h7 : w.getLsbD 7 = true) :
    Classified w (.whole (decodeT12 w)) := by
  cases h11 : w.getLsbD 11 with
  | true =>
    have pattern : w &&& 0xF980#16 = 0x0880#16 := by
      simp only [mask_eq_iff, forall_lt_sixteen, h15, h14, h13, h12, h11, h8, h7]
      simp
    rw [decodeT12_of_bit11 h11]
    refine classified_of_pattern pattern (by decide) (table := ⟨(by decide : _ = 0x0000#16), rfl, by decide⟩) ?_ rfl
    rw [encode, List.cons.injEq]
    refine ⟨BitVec.eq_of_getLsbD_eq fun n hn => ?_, rfl⟩
    simp only [wordReservedT12, place]
    simp at h15 h14 h13 h12 h11 h8 h7
    interval_cases n <;> simp [h15, h14, h13, h12, h11, h8, h7]
  | false =>
    obtain ⟨word, legal⟩ := encode_decodeT12 h11
    have pattern : w &&& 0xF980#16 = 0x0080#16 := by
      simp only [mask_eq_iff, forall_lt_sixteen, h15, h14, h13, h12, h11, h8, h7]
      simp
    refine classified_of_pattern pattern (by decide) (table := ⟨(by decide : _ = 0x007F#16), rfl, by decide⟩) ?_ legal
    rw [word, List.cons.injEq]
    refine ⟨BitVec.eq_of_getLsbD_eq fun n hn => ?_, rfl⟩
    simp only [wordT12, place]
    simp at h15 h14 h13 h12 h8 h7
    interval_cases n <;> simp [h15, h14, h13, h12, h8, h7]

theorem encode_decodeT13 {w : Word} (legal : w.extractLsb' 9 3 ≠ 0b110#3) :
    encode (decodeT13 w) = [wordT13 (w.extractLsb' 9 3) (regAt w 3) (regAt w 0)] ∧
      (decodeT13 w).wellFormed = true := by
  unfold decodeT13
  split <;> simp_all [encode, Instr.wellFormed]

/-- What the tables say of the patterns of T13. -/
theorem tables_T13 : ∀ op : BitVec 3, op ≠ 0b110#3 → settlesAll 0xFF80#16 (place op 9) = true ∧
    unusedBits (place op 9) = 0x0040#16 ∧ isReserved (place op 9) = false ∧
    place op 9 &&& 0xF1E0#16 ≠ 0x0160#16 := by decide

theorem classified_T13 {w : Word} (h15 : w.getLsbD 15 = false) (h14 : w.getLsbD 14 = false) (h13 : w.getLsbD 13 = false)
    (h12 : w.getLsbD 12 = false) (h8 : w.getLsbD 8 = false) (h7 : w.getLsbD 7 = false) :
    Classified w (.whole (decodeT13 w)) := by
  have pattern : w &&& 0xFF80#16 = place (w.extractLsb' 9 3) 9 := by
    simp only [mask_eq_iff, forall_lt_sixteen, h15, h14, h13, h12, h8, h7, place]
    simp
  by_cases op : w.extractLsb' 9 3 = 0b110#3
  · rw [op] at pattern
    simp only [decodeT13, op]
    refine classified_of_pattern pattern (by decide) (table := ⟨(by decide : _ = 0x0000#16), rfl, by decide⟩) ?_ rfl
    rw [encode, List.cons.injEq]
    refine ⟨BitVec.eq_of_getLsbD_eq fun n hn => ?_, rfl⟩
    simp only [extract3_eq, Nat.reduceAdd] at op
    simp only [wordReservedT13, place]
    simp at h15 h14 h13 h12 h8 h7 op
    interval_cases n <;> simp [h15, h14, h13, h12, h8, h7, op]
  · obtain ⟨word, legal⟩ := encode_decodeT13 op
    obtain ⟨all, table⟩ := tables_T13 _ op
    refine classified_of_pattern pattern all table ?_ legal
    rw [word, List.cons.injEq]
    refine ⟨BitVec.eq_of_getLsbD_eq fun n hn => ?_, rfl⟩
    simp only [wordT13, place, regAt_bits]
    simp at h15 h14 h13 h12 h8 h7
    interval_cases n <;> simp [h15, h14, h13, h12, h8, h7]

/-- The pattern of T5 with an operation, op[3:1] and op[0]. -/
def patternT5 (c : BitVec 3) (d : BitVec 1) : Word := 0x2000#16 ||| place c 10 ||| place d 9

/-- The operation of T5 is op[3:1] and op[0]. -/
theorem place_op : ∀ (c : BitVec 3) (d : BitVec 1), place (n := 4) (c ++ d) 9 = place c 10 ||| place d 9 := by decide

/-- op[0] is unused in T5 (R98). -/
def unusedOp0 (c : BitVec 3) : Prop := c = 0b100#3 ∨ c = 0b110#3 ∨ c = 0b111#3

/-- What the tables say of the patterns of T5. -/
theorem tables_T5 : ∀ c : BitVec 3, ∀ d : BitVec 1, settlesAll 0xFE00#16 (patternT5 c d) = true ∧
    unusedBits (patternT5 c d) =
      (if c = 0b100#3 ∨ c = 0b110#3 ∨ c = 0b111#3 then 0x0200#16 else 0x0000#16) ∧
    isReserved (patternT5 c d) = decide (c = 0b011#3 ∧ d = 0b1#1) ∧
    patternT5 c d &&& 0xF1E0#16 ≠ 0x0160#16 := by decide

theorem encode_decodeT5_used {w : Word} (used : ¬ unusedOp0 (w.extractLsb' 10 3))
    (legal : ¬ (w.extractLsb' 10 3 = 0b011#3 ∧ w.extractLsb' 9 1 = 0b1#1)) :
    encode (decodeT5 w) =
        [wordT5 (w.extractLsb' 10 3 ++ w.extractLsb' 9 1) (regAt w 6) (regAt w 3) (regAt w 0)] ∧
      (decodeT5 w).wellFormed = true := by
  unfold decodeT5
  split <;> simp_all [encode, Instr.wellFormed, unusedOp0]

theorem encode_decodeT5_unused {w : Word} (unused : unusedOp0 (w.extractLsb' 10 3)) :
    encode (decodeT5 w) = [wordT5 (w.extractLsb' 10 3 ++ 0b0#1) (regAt w 6) (regAt w 3) (regAt w 0)] ∧
      (decodeT5 w).wellFormed = true := by
  obtain op | op | op := unused <;> simp [decodeT5, op, encode, Instr.wellFormed]

theorem classified_T5 {w : Word} (h15 : w.getLsbD 15 = false) (h14 : w.getLsbD 14 = false)
    (h13 : w.getLsbD 13 = true) : Classified w (.whole (decodeT5 w)) := by
  have pattern : w &&& 0xFE00#16 = patternT5 (w.extractLsb' 10 3) (w.extractLsb' 9 1) := by
    simp only [mask_eq_iff, forall_lt_sixteen, h15, h14, h13, patternT5, place]
    simp
  obtain ⟨all, unused, reserved, other⟩ := tables_T5 (w.extractLsb' 10 3) (w.extractLsb' 9 1)
  simp at h15 h14 h13
  by_cases ill : w.extractLsb' 10 3 = 0b011#3 ∧ w.extractLsb' 9 1 = 0b1#1
  · obtain ⟨c, d⟩ := ill
    simp only [c, d] at unused reserved
    simp only [decodeT5, c, d] 
    refine classified_of_pattern pattern all ⟨by rw [c, d, unused], by rw [c, d, reserved], other⟩ ?_ rfl
    rw [encode, List.cons.injEq]
    refine ⟨BitVec.eq_of_getLsbD_eq fun n hn => ?_, rfl⟩
    simp only [extract3_eq, extract1_eq, Nat.reduceAdd] at c d
    simp only [wordReservedT5, place]
    simp at c d
    interval_cases n <;> simp [h15, h14, h13, c, d]
  by_cases op0 : unusedOp0 (w.extractLsb' 10 3)
  · obtain ⟨word, legal⟩ := encode_decodeT5_unused op0
    refine classified_of_pattern pattern all ⟨unused.trans (if_pos op0), reserved.trans (decide_eq_false ill), other⟩ ?_ legal
    rw [word, List.cons.injEq]
    refine ⟨BitVec.eq_of_getLsbD_eq fun n hn => ?_, rfl⟩
    simp only [wordT5, place_op]
    simp only [place, regAt_bits]
    interval_cases n <;> simp [h15, h14, h13]
  · obtain ⟨word, legal⟩ := encode_decodeT5_used op0 ill
    refine classified_of_pattern pattern all ⟨unused.trans (if_neg op0), reserved.trans (decide_eq_false ill), other⟩ ?_ legal
    rw [word, List.cons.injEq]
    refine ⟨BitVec.eq_of_getLsbD_eq fun n hn => ?_, rfl⟩
    simp only [wordT5, place_op]
    simp only [place, regAt_bits]
    interval_cases n <;> simp [h15, h14, h13]

/-- The blank places of the table of R99, by row and column. -/
def reservedT11 : List (BitVec 3 × BitVec 2) :=
  [(0b010#3, 0b01#2), (0b011#3, 0b01#2), (0b100#3, 0b01#2), (0b101#3, 0b01#2), (0b110#3, 0b01#2),
   (0b011#3, 0b10#2), (0b100#3, 0b10#2), (0b111#3, 0b10#2), (0b110#3, 0b11#2), (0b111#3, 0b11#2)]

/-- The pattern of T11 with a row and a column. -/
def patternT11 (op : BitVec 3) (op2 : BitVec 2) : Word := 0x0100#16 ||| place op 9 ||| place op2 5

/-- What the tables say of the patterns of T11. -/
theorem tables_T11 : ∀ op : BitVec 3, ∀ op2 : BitVec 2, settlesAll 0xFFE0#16 (patternT11 op op2) = true ∧
    unusedBits (patternT11 op op2) = (if (op, op2) ∈ reservedT11 then 0x0000#16 else 0x0018#16) ∧
    isReserved (patternT11 op op2) = decide ((op, op2) ∈ reservedT11) ∧
    (patternT11 op op2 &&& 0xF1E0#16 = 0x0160#16 ↔ op2 = 0b11#2) := by decide

/-- The row of a two-word form is below the two blank places of its column. -/
theorem wideBits_used : ∀ op : WideOp, (wideBits op, 0b11#2) ∉ reservedT11 ∧ (wideBits op).toNat ≤ 5 := by
  rintro (_ | _ | _ | _ | _ | _) <;> decide

theorem encode_wide (op : WideOp) (rd : Reg) (w2 : Word) :
    encode (op.instr rd w2) = [wordT11 (wideBits op) 0b11#2 rd, w2] := by
  cases op <;> rfl

section
variable {w : Word} (h15 : w.getLsbD 15 = false) (h14 : w.getLsbD 14 = false) (h13 : w.getLsbD 13 = false)
  (h12 : w.getLsbD 12 = false) (h8 : w.getLsbD 8 = true) (h7 : w.getLsbD 7 = false)
include h15 h14 h13 h12 h8 h7

theorem pattern_T11 : w &&& 0xFFE0#16 = patternT11 (w.extractLsb' 9 3) (w.extractLsb' 5 2) := by
  simp only [mask_eq_iff, forall_lt_sixteen, h15, h14, h13, h12, h8, h7, patternT11, place]
  simp

theorem takesSecondWord_T11 :
    takesSecondWord w = decide (w.extractLsb' 5 2 = 0b11#2 ∧ (w.extractLsb' 9 3).toNat ≤ 5) := by
  obtain ⟨all, -, -, wide⟩ := tables_T11 (w.extractLsb' 9 3) (w.extractLsb' 5 2)
  have test := mask_iff_of_settlesAll (pattern_T11 h15 h14 h13 h12 h8 h7) all (0xF1E0#16, 0x0160#16) (by decide)
  simp only [takesSecondWord, test, wide]

/-- The word of a blank place of R99 holds no unused bit. -/
theorem word_T11_reserved :
    wordT11Reserved (w.extractLsb' 9 3) (w.extractLsb' 5 2) (w.extractLsb' 0 5) = w &&& ~~~0x0000#16 := by
  refine BitVec.eq_of_getLsbD_eq fun n hn => ?_
  simp only [wordT11Reserved, place]
  simp at h15 h14 h13 h12 h8 h7
  interval_cases n <;> simp [h15, h14, h13, h12, h8, h7]

theorem word_T11 : wordT11 (w.extractLsb' 9 3) (w.extractLsb' 5 2) (regAt w 0) = w &&& ~~~0x0018#16 := by
  refine BitVec.eq_of_getLsbD_eq fun n hn => ?_
  simp only [wordT11, place, regAt_bits]
  simp at h15 h14 h13 h12 h8 h7
  interval_cases n <;> simp [h15, h14, h13, h12, h8, h7]

theorem classified_T11_reserved {op : BitVec 3} {op2 : BitVec 2} {i : Instr}
    (word : encode i = [wordT11Reserved op op2 (w.extractLsb' 0 5)]) (ill : i.wellFormed = false)
    (blank : (op, op2) ∈ reservedT11 ∧ ¬ (op2 = 0b11#2 ∧ op.toNat ≤ 5)) (row : w.extractLsb' 9 3 = op)
    (column : w.extractLsb' 5 2 = op2) : Classified w (.whole i) := by
  subst row column
  obtain ⟨all, unused, reserved, -⟩ := tables_T11 (w.extractLsb' 9 3) (w.extractLsb' 5 2)
  have pattern := pattern_T11 h15 h14 h13 h12 h8 h7
  refine .whole ?_ ?_ ?_
  · rw [word, word_T11_reserved h15 h14 h13 h12 h8 h7, unusedBits_of_pattern pattern all, unused, if_pos blank.1]
  · rw [ill, isReserved_of_pattern pattern all, reserved, decide_eq_true blank.1, Bool.not_true]
  · rw [takesSecondWord_T11 h15 h14 h13 h12 h8 h7, decide_eq_false blank.2]

theorem classified_T11_whole {op : BitVec 3} {op2 : BitVec 2} {i : Instr} (word : encode i = [wordT11 op op2 (regAt w 0)])
    (legal : i.wellFormed = true) (used : (op, op2) ∉ reservedT11 ∧ op2 ≠ 0b11#2) (row : w.extractLsb' 9 3 = op)
    (column : w.extractLsb' 5 2 = op2) : Classified w (.whole i) := by
  subst row column
  obtain ⟨all, unused, reserved, -⟩ := tables_T11 (w.extractLsb' 9 3) (w.extractLsb' 5 2)
  have pattern := pattern_T11 h15 h14 h13 h12 h8 h7
  refine .whole ?_ ?_ ?_
  · rw [word, word_T11 h15 h14 h13 h12 h8 h7, unusedBits_of_pattern pattern all, unused, if_neg used.1]
  · rw [legal, isReserved_of_pattern pattern all, reserved, decide_eq_false used.1, Bool.not_false]
  · rw [takesSecondWord_T11 h15 h14 h13 h12 h8 h7, decide_eq_false fun h => used.2 h.1]

theorem classified_T11_wide {op : WideOp} (row : w.extractLsb' 9 3 = wideBits op) (column : w.extractLsb' 5 2 = 0b11#2) :
    Classified w (.wide op (regAt w 0)) := by
  obtain ⟨used, low⟩ := wideBits_used op
  rw [← row] at used low
  rw [← column] at used
  obtain ⟨all, unused, reserved, -⟩ := tables_T11 (w.extractLsb' 9 3) (w.extractLsb' 5 2)
  have pattern := pattern_T11 h15 h14 h13 h12 h8 h7
  refine .wide (fun w2 => ?_) ?_ ?_
  · rw [encode_wide, ← row, ← column, word_T11 h15 h14 h13 h12 h8 h7, unusedBits_of_pattern pattern all, unused,
      if_neg used]
  · rw [isReserved_of_pattern pattern all, reserved, decide_eq_false used]
  · rw [takesSecondWord_T11 h15 h14 h13 h12 h8 h7, decide_eq_true ⟨column, low⟩]

/-- The table of R99, place by place. -/
theorem classified_T11 : Classified w (decodeT11 w) := by
  unfold decodeT11
  split
  case h_11 column row | h_12 column row | h_13 column row | h_14 column row | h_15 column row | h_20 column row
      | h_21 column row | h_24 column row | h_31 column row | h_32 column row =>
    exact classified_T11_reserved h15 h14 h13 h12 h8 h7 rfl rfl (by decide) row column
  case h_25 column row => exact classified_T11_wide h15 h14 h13 h12 h8 h7 (op := .movKr) row column
  case h_26 column row => exact classified_T11_wide h15 h14 h13 h12 h8 h7 (op := .mov16ar) row column
  case h_27 column row => exact classified_T11_wide h15 h14 h13 h12 h8 h7 (op := .mov8zar) row column
  case h_28 column row => exact classified_T11_wide h15 h14 h13 h12 h8 h7 (op := .mov8sar) row column
  case h_29 column row => exact classified_T11_wide h15 h14 h13 h12 h8 h7 (op := .mov16ra) row column
  case h_30 column row => exact classified_T11_wide h15 h14 h13 h12 h8 h7 (op := .mov8ra) row column
  all_goals
    rename_i column row
    exact classified_T11_whole h15 h14 h13 h12 h8 h7 rfl rfl (by decide) row column

end

/-- Every first word is classified: by its leading bits it reaches one leaf of the decoding tree (R96). -/
theorem classified (w : Word) : Classified w (decodeFirst w) := by
  cases h15 : w.getLsbD 15 <;> cases h14 : w.getLsbD 14
  case false.false =>
    cases h13 : w.getLsbD 13
    case true => exact decodeFirst_T5 h15 h14 h13 ▸ classified_T5 h15 h14 h13
    case false =>
      cases h12 : w.getLsbD 12
      case true => exact decodeFirst_T4 h15 h14 h13 h12 ▸ classified_T4 h15 h14 h13 h12
      case false =>
        cases h8 : w.getLsbD 8 <;> cases h7 : w.getLsbD 7
        case false.false => exact decodeFirst_T13 h15 h14 h13 h12 h8 h7 ▸ classified_T13 h15 h14 h13 h12 h8 h7
        case false.true => exact decodeFirst_T12 h15 h14 h13 h12 h8 h7 ▸ classified_T12 h15 h14 h13 h12 h8 h7
        case true.false => exact decodeFirst_T11 h15 h14 h13 h12 h8 h7 ▸ classified_T11 h15 h14 h13 h12 h8 h7
        case true.true => exact decodeFirst_T3 h15 h14 h13 h12 h8 h7 ▸ classified_T3 h15 h14 h13 h12 h8 h7
  case false.true =>
    cases h8 : w.getLsbD 8
    case true => exact decodeFirst_T8 h15 h14 h8 ▸ classified_T8 h15 h14 h8
    case false => exact decodeFirst_T9 h15 h14 h8 ▸ classified_T9 h15 h14 h8
  case true.false => exact decodeFirst_T7 h15 h14 ▸ classified_T7 h15 h14
  case true.true =>
    cases h13 : w.getLsbD 13
    case true => exact decodeFirst_T1 h15 h14 h13 ▸ classified_T1 h15 h14 h13
    case false =>
      cases h12 : w.getLsbD 12
      case true => exact decodeFirst_T2 h15 h14 h13 h12 ▸ classified_T2 h15 h14 h13 h12
      case false =>
        cases h8 : w.getLsbD 8
        case true => exact decodeFirst_T6 h15 h14 h13 h12 h8 ▸ classified_T6 h15 h14 h13 h12 h8
        case false => exact decodeFirst_T10 h15 h14 h13 h12 h8 ▸ classified_T10 h15 h14 h13 h12 h8

/-! Decoding, by the first word. -/

theorem wideInstr_wellFormed (op : WideOp) (rd : Reg) (w2 : Word) : (op.instr rd w2).wellFormed = true := by
  cases op <;> rfl

/-- All that is known of an instruction that a list of words decodes to. -/
theorem classified_of_decode {w : Word} {i : Instr} {rest rest' : List Word}
    (h : decode (w :: rest) = .ok (i, rest')) :
    (rest' = rest ∧ encode i = [w &&& ~~~unusedBits w] ∧ i.wellFormed = !isReserved w ∧ takesSecondWord w = false) ∨
    ∃ w2, rest = w2 :: rest' ∧ encode i = [w &&& ~~~unusedBits w, w2] ∧ i.wellFormed = !isReserved w ∧
      takesSecondWord w = true := by
  have facts := classified w
  obtain ⟨first, same⟩ | ⟨op, rd, w2, first, next, rfl⟩ := decode_eq_ok h
  · rw [first] at facts
    cases facts with
    | whole word reserved short => exact .inl ⟨same, word, reserved, short⟩
  · rw [first] at facts
    cases facts with
    | wide word reserved long =>
      exact .inr ⟨w2, next, word w2, by rw [wideInstr_wellFormed, reserved, Bool.not_false], long⟩

/-- An instruction is encoded in as many words as it occupies. -/
theorem encode_length (i : Instr) : (encode i).length = i.words := by
  cases i <;> rfl

/-- Settles O2: every first word is classified, and classified words are given back but for the unused bits. -/
theorem encodeOfDecodedWordClearsUnusedBits : Obligations.EncodeOfDecodedWordClearsUnusedBits := by
  unfold Obligations.EncodeOfDecodedWordClearsUnusedBits
  intro w w2
  have facts := classified w
  generalize first : decodeFirst w = form at facts
  cases facts with
  | whole word reserved short => exact ⟨_, [w2], decode_whole first [w2], by rw [word, List.singleton_append]⟩
  | wide word reserved long => exact ⟨_, [], decode_wide first w2 [], by rw [word, List.append_nil]⟩

/-- Settles O3: what decoding says of a first word is what its pattern says of the masks. -/
theorem reservedBlocksAreThoseOfTheTable : Obligations.ReservedBlocksAreThoseOfTheTable := by
  unfold Obligations.ReservedBlocksAreThoseOfTheTable
  intro w w2 i rest h
  obtain ⟨-, -, reserved, -⟩ | ⟨-, -, -, reserved, -⟩ := classified_of_decode h <;>
    rw [reserved, Bool.not_eq_false']

/-- Settles O4: as many words are taken as the encoding has. -/
theorem lengthIsSettledByTheFirstWord : Obligations.LengthIsSettledByTheFirstWord := by
  unfold Obligations.LengthIsSettledByTheFirstWord
  intro w w2 i rest h
  obtain ⟨same, word, -, short⟩ | ⟨w2', next, word, -, long⟩ := classified_of_decode h
  · refine ⟨fun long => ?_, fun _ => ⟨same, ?_⟩⟩
    · rw [short] at long
      cases long
    · rw [← encode_length, word, List.length_singleton]
  · refine ⟨fun _ => ⟨?_, ?_⟩, fun short => ?_⟩
    · cases next
      rfl
    · rw [← encode_length, word, List.length_cons, List.length_singleton]
    · rw [long] at short
      cases short

/-- A first word that takes a second one is a two-word form. -/
theorem wide_of_takesSecondWord {w : Word} (h : takesSecondWord w = true) : ∃ op rd, decodeFirst w = .wide op rd := by
  have facts := classified w
  generalize decodeFirst w = form at facts ⊢
  cases facts with
  | whole word reserved short =>
    rw [short] at h
    cases h
  | @wide op rd word reserved long => exact ⟨op, rd, rfl⟩

/-! Fetch. -/

theorem fetch_of_decode {s : State} {i : Instr} {rest : List Word}
    (h : decode (wordsAt s.prog s.pc) = .ok (i, rest)) : fetch s = .ok i := by
  simp only [fetch, h]

theorem step_of_fetch_error {s : State} {f : Fault} (h : fetch s = .error f) : step s = .fault f := by
  rw [step_eq, h]

theorem fetch_unloaded {s : State} (h : programWord s s.pc = none) : fetch s = .error (.unmappedProgram s.pc) := by
  simp only [fetch, wordsAt_none h, decode]

theorem fetch_second_unloaded {s : State} {w : Word} {op : WideOp} {rd : Reg} (h : programWord s s.pc = some w)
    (first : decodeFirst w = .wide op rd) (h2 : programWord s (s.pc + 1) = none) :
    fetch s = .error (.unmappedProgram (s.pc + 1)) := by
  simp only [fetch, wordsAt_one h h2, decode_wide_short first]
  rfl

/-- Settles O8: the words at pc end before the first or before the second word. -/
theorem fetchOfUnloadedWordFaults : Obligations.FetchOfUnloadedWordFaults := by
  unfold Obligations.FetchOfUnloadedWordFaults
  refine fun s => ⟨fun none => step_of_fetch_error (fetch_unloaded none), fun w some long none => ?_⟩
  obtain ⟨op, rd, first⟩ := wide_of_takesSecondWord long
  exact step_of_fetch_error (fetch_second_unloaded some first none)

/-- Settles O7: the decoder reads the words at pc, and one word decodes alike with any word after it. -/
theorem stepRunsTheDecodedInstruction : Obligations.StepRunsTheDecodedInstruction := by
  unfold Obligations.StepRunsTheDecodedInstruction
  intro s i w w2 loaded
  refine ⟨fun one => step_of_fetch ?_, fun loaded2 two => step_of_fetch ?_⟩
  · obtain ⟨first, -⟩ | ⟨_, _, _, _, next, _⟩ := decode_eq_ok one
    · cases second : programWord s (s.pc + 1) with
      | none => exact fetch_of_decode (by rw [wordsAt_one loaded second, one])
      | some w' => exact fetch_of_decode (by rw [wordsAt_two loaded second, decode_whole first])
    · cases next
  · exact fetch_of_decode (by rw [wordsAt_two loaded loaded2, two])

/-! Reserved blocks. -/

theorem exec_of_ill_formed {i : Instr} (ill : i.wellFormed = false) (s : State) :
    exec i s = .fault (.reservedEncoding (firstWord i)) := by
  cases i with
  | reservedT5_0111 | reservedT6_1x | reservedT11_010_01 | reservedT11_011_01 | reservedT11_100_01
  | reservedT11_101_01 | reservedT11_110_01 | reservedT11_011_10 | reservedT11_100_10 | reservedT11_111_10
  | reservedT11_110_11 | reservedT11_111_11 | reservedT12_1xx | reservedT13_110 => rfl
  | _ => cases ill

/-- Settles O58: a reserved word has no unused bit, so that its block's first word is the word itself. -/
theorem retiAndReservedBlocksStop : Obligations.RetiAndReservedBlocksStop := by
  unfold Obligations.RetiAndReservedBlocksStop
  refine fun s => ⟨rfl, fun w rest i h ill => ?_⟩
  have facts : encode i = [w &&& ~~~unusedBits w] ∧ i.wellFormed = !isReserved w := by
    obtain ⟨-, word, reserved, -⟩ | ⟨w2, next, -⟩ := classified_of_decode h
    · exact ⟨word, reserved⟩
    · simp at next
  obtain ⟨word, reserved⟩ := facts
  rw [ill, eq_comm, Bool.not_eq_false'] at reserved
  have whole : unusedBits w = 0x0000#16 := if_pos reserved
  rw [exec_of_ill_formed ill, firstWord, word, whole, List.headD_cons, BitVec.not_zero, BitVec.and_allOnes]

end Sys2Proof.Proofs
end

section
/-! PROOFS. The families 30_encoding.md and 40_control_cond.md: words with unused bits at any value, conditions, branches,
sets and selects, the relative jump. -/

namespace Sys2Proof.Proofs

open Sys2Proof Sys2Proof.Machine Sys2Proof.Claims

/-! Words with unused bits at any value (D21): the leaf they reach and the fields it reads. -/

/-- A T3 word, its unused bits 6:3 at any value. -/
def anyT3 (cc : BitVec 3) (x : BitVec 4) (rd : Reg) : Word := 0x0180#16 ||| place cc 9 ||| place x 3 ||| place rd.bits 0

theorem decodeFirst_anyT3 (cc : BitVec 3) (x : BitVec 4) (rd : Reg) :
    decodeFirst (anyT3 cc x rd) = .whole (decodeT3 (anyT3 cc x rd)) := by
  apply decodeFirst_T3 <;> simp [anyT3, place]

@[simp] theorem extract_anyT3_9_3 (cc : BitVec 3) (x : BitVec 4) (rd : Reg) :
    (anyT3 cc x rd).extractLsb' 9 3 = cc := by
  ext n hn
  simp [anyT3, place]
  interval_cases n <;> simp

@[simp] theorem regAt_anyT3_0 (cc : BitVec 3) (x : BitVec 4) (rd : Reg) : regAt (anyT3 cc x rd) 0 = rd := by
  apply regAt_of_extract
  ext n hn
  simp [anyT3, place]
  interval_cases n <;> simp

/-- A T11 word, its unused bits 4:3 at any value. -/
def anyT11 (op : BitVec 3) (op2 : BitVec 2) (x : BitVec 2) (rd : Reg) : Word :=
  patternT11 op op2 ||| place x 3 ||| place rd.bits 0

theorem decodeFirst_anyT11 (op : BitVec 3) (op2 : BitVec 2) (x : BitVec 2) (rd : Reg) :
    decodeFirst (anyT11 op op2 x rd) = decodeT11 (anyT11 op op2 x rd) := by
  apply decodeFirst_T11 <;> simp [anyT11, patternT11, place]

@[simp] theorem extract_anyT11_9_3 (op : BitVec 3) (op2 : BitVec 2) (x : BitVec 2) (rd : Reg) :
    (anyT11 op op2 x rd).extractLsb' 9 3 = op := by
  ext n hn
  simp [anyT11, patternT11, place]
  interval_cases n <;> simp

@[simp] theorem extract_anyT11_5_2 (op : BitVec 3) (op2 : BitVec 2) (x : BitVec 2) (rd : Reg) :
    (anyT11 op op2 x rd).extractLsb' 5 2 = op2 := by
  ext n hn
  simp [anyT11, patternT11, place]
  interval_cases n <;> simp

@[simp] theorem regAt_anyT11_0 (op : BitVec 3) (op2 : BitVec 2) (x : BitVec 2) (rd : Reg) :
    regAt (anyT11 op op2 x rd) 0 = rd := by
  apply regAt_of_extract
  ext n hn
  simp [anyT11, patternT11, place]
  interval_cases n <;> simp

/-- A T13 word, its unused bit 6 at either value. -/
def anyT13 (op : BitVec 3) (x : BitVec 1) (rs rd : Reg) : Word :=
  place op 9 ||| place x 6 ||| place rs.bits 3 ||| place rd.bits 0

theorem decodeFirst_anyT13 (op : BitVec 3) (x : BitVec 1) (rs rd : Reg) :
    decodeFirst (anyT13 op x rs rd) = .whole (decodeT13 (anyT13 op x rs rd)) := by
  apply decodeFirst_T13 <;> simp [anyT13, place]

@[simp] theorem extract_anyT13_9_3 (op : BitVec 3) (x : BitVec 1) (rs rd : Reg) :
    (anyT13 op x rs rd).extractLsb' 9 3 = op := by
  ext n hn
  simp [anyT13, place]
  interval_cases n <;> simp

@[simp] theorem regAt_anyT13_3 (op : BitVec 3) (x : BitVec 1) (rs rd : Reg) : regAt (anyT13 op x rs rd) 3 = rs := by
  apply regAt_of_extract
  ext n hn
  simp [anyT13, place]
  interval_cases n <;> simp

@[simp] theorem regAt_anyT13_0 (op : BitVec 3) (x : BitVec 1) (rs rd : Reg) : regAt (anyT13 op x rs rd) 0 = rd := by
  apply regAt_of_extract
  ext n hn
  simp [anyT13, place]
  interval_cases n <;> simp

/-- Settles O6: the leaf of each written-out word. -/
theorem writtenOutWordsDecode : Obligations.WrittenOutWordsDecode := by
  unfold Obligations.WrittenOutWordsDecode
  exact ⟨decode_whole (by decide), decode_whole (by decide), decode_whole (by decide), decode_whole (by decide),
    decode_whole (by decide), decode_whole (by decide), decode_whole (by decide), decode_whole (by decide),
    decode_whole (by decide), decode_whole (by decide), decode_whole (by decide), decode_whole (by decide),
    decode_whole (by decide), decode_wide (op := .mov16ar) (by decide), decode_whole (by decide),
    decode_whole (by decide)⟩

/-! The conditional instructions, as one family over the condition. -/

theorem exec_branchOn (cc : Cond) (a : BitVec 9) (s : State) : exec (branchOn cc a) s = branchIf cc a s := by
  cases cc <;> rfl

theorem exec_setOn (cc : Cond) (rd : Reg) (s : State) :
    exec (setOn cc rd) s = .next (s.endMove rd (if condHolds cc s.sar then 1 else 0)) := by
  cases cc <;> rfl

theorem exec_selectOn (cc : Cond) (rn rs rd : Reg) (s : State) :
    exec (selectOn cc rn rs rd) s = .next (s.endMove rd (if condHolds cc s.sar then s.reg rn else s.reg rs)) := by
  cases cc <;> rfl

theorem encodedAs_branchOn (cc : Cond) (a : BitVec 9) : EncodedAs (wordT2 (condBits cc) a) (branchOn cc a) := by
  have leaf : decodeFirst (wordT2 (condBits cc) a) = .whole (branchOn cc a) := by
    rw [decodeFirst_wordT2]
    cases cc <;> simp [decodeT2, condBits, branchOn]
  exact decode_whole leaf

theorem encodedAs_setOn (cc : Cond) (x : BitVec 4) (rd : Reg) :
    EncodedAs (anyT3 (condBits cc) x rd) (setOn cc rd) := by
  have leaf : decodeFirst (anyT3 (condBits cc) x rd) = .whole (setOn cc rd) := by
    rw [decodeFirst_anyT3]
    cases cc <;> simp [decodeT3, condBits, setOn]
  exact decode_whole leaf

theorem encodedAs_selectOn (cc : Cond) (rn rs rd : Reg) :
    EncodedAs (wordT4 (condBits cc) rn rs rd) (selectOn cc rn rs rd) := by
  have leaf : decodeFirst (wordT4 (condBits cc) rn rs rd) = .whole (selectOn cc rn rs rd) := by
    rw [decodeFirst_wordT4]
    cases cc <;> simp [decodeT4, condBits, selectOn]
  exact decode_whole leaf

/-- The model's conditions are those of R33's table. -/
theorem condHolds_iff (cc : Cond) (f : Sar) : condHolds cc f = true ↔ CondTrue f cc := by
  cases cc <;> simp [condHolds, CondTrue]

theorem condHolds_eq_false (cc : Cond) (f : Sar) : condHolds cc f = false ↔ ¬ CondTrue f cc := by
  rw [← condHolds_iff, Bool.not_eq_true]

/-- A condition reads V, S, C, Z only. -/
theorem condHolds_congr (cc : Cond) {f g : Sar} (v : f.v = g.v) (s : f.s = g.s) (c : f.c = g.c) (z : f.z = g.z) :
    condHolds cc f = condHolds cc g := by
  cases cc <;> simp only [condHolds, v, s, c, z]

/-- Settles O21: one lemma for each of its clauses. -/
theorem conditionCodesFollowTheTable : Obligations.ConditionCodesFollowTheTable := by
  unfold Obligations.ConditionCodesFollowTheTable
  refine ⟨condHolds_iff, fun cc f g v s c z => condHolds_congr cc v s c z, fun cc a s => ⟨fun h => ?_, fun h => ?_⟩,
    exec_setOn, exec_selectOn, encodedAs_branchOn, encodedAs_setOn, encodedAs_selectOn⟩
  · rw [exec_branchOn, branchIf, h, if_pos rfl]
  · rw [exec_branchOn, branchIf, h, if_neg Bool.false_ne_true]

/-- Settles O22: the target in exact arithmetic. -/
theorem relativeJumpTarget : Obligations.RelativeJumpTarget := by
  unfold Obligations.RelativeJumpTarget
  intro a s
  rw [← relTarget_eq]
  rfl

/-- Settles O24: the two outcomes of a branch, the target in exact arithmetic. -/
theorem conditionalBranchGoesWhereItsConditionSays : Obligations.ConditionalBranchGoesWhereItsConditionSays := by
  unfold Obligations.ConditionalBranchGoesWhereItsConditionSays
  refine fun cc a s => ⟨fun h => ?_, fun h => ?_⟩
  · rw [exec_branchOn, branchIf, if_pos ((condHolds_iff cc _).2 h), relTarget_eq]
    rfl
  · rw [exec_branchOn, branchIf, (condHolds_eq_false cc _).2 h, if_neg Bool.false_ne_true]
    rfl

/-- Settles O25: a set ends as a move of 1 or 0. -/
theorem conditionalSetWritesOneOrZero : Obligations.ConditionalSetWritesOneOrZero := by
  unfold Obligations.ConditionalSetWritesOneOrZero
  refine fun cc rd s => ⟨fun h => ?_, fun h => ?_⟩
  · rw [exec_setOn, endMove_eq, if_pos ((condHolds_iff cc _).2 h)]
  · rw [exec_setOn, endMove_eq, (condHolds_eq_false cc _).2 h, if_neg Bool.false_ne_true]

theorem exec_selectOn_of_true {cc : Cond} {s : State} (h : CondTrue s.sar cc) (rn rs rd : Reg) :
    exec (selectOn cc rn rs rd) s = .next { s with regs := s.regs.set rd (s.reg rn), pc := s.pc + 1 } := by
  rw [exec_selectOn, endMove_eq, if_pos ((condHolds_iff cc _).2 h)]

theorem exec_selectOn_of_false {cc : Cond} {s : State} (h : ¬ CondTrue s.sar cc) (rn rs rd : Reg) :
    exec (selectOn cc rn rs rd) s = .next { s with regs := s.regs.set rd (s.reg rs), pc := s.pc + 1 } := by
  rw [exec_selectOn, endMove_eq, (condHolds_eq_false cc _).2 h, if_neg Bool.false_ne_true]

/-- Settles O26: exchanging the operands exchanges what the two outcomes copy. -/
theorem conditionalSelectCopiesOneOperand : Obligations.ConditionalSelectCopiesOneOperand := by
  unfold Obligations.ConditionalSelectCopiesOneOperand
  exact fun cc rn rs rd s =>
    ⟨fun h => ⟨exec_selectOn_of_true h rn rs rd, exec_selectOn_of_true h rs rn rd⟩,
      fun h => ⟨exec_selectOn_of_false h rn rs rd, exec_selectOn_of_false h rs rn rd⟩⟩

end Sys2Proof.Proofs
end

section
/-! PROOFS. Addition, subtraction and comparison (families 41, 42, 43 and 44): the ends of the arithmetic instructions in
exact integers, and what the conditions say after them. -/

namespace Sys2Proof.Proofs

open Sys2Proof Sys2Proof.Machine Sys2Proof.Claims

/-! The flags of the one adder are those of the exact sum and difference. -/

theorem sumSar_eq (f : Sar) (a b : Word) (cin : Bool) :
    sumSar f a b cin = { f with
      v := (addC a b cin).v, s := (addC a b cin).s, c := (addC a b cin).c, z := (addC a b cin).z
      ac := (addC a b cin).c, az := (addC a b cin).z } := by
  rw [addC_s, addC_z, addC_v, addC_c, addC_r]
  rfl

theorem differenceSar_eq (f : Sar) (a b : Word) (borrow : Bool) :
    differenceSar f a b borrow = { f with
      v := (addC a (~~~b) (!borrow)).v, s := (addC a (~~~b) (!borrow)).s, c := (addC a (~~~b) (!borrow)).c
      z := (addC a (~~~b) (!borrow)).z, ac := (addC a (~~~b) (!borrow)).c, az := (addC a (~~~b) (!borrow)).z } := by
  rw [addC_s, addC_z, addC_not_v, addC_not_c, addC_not_r]
  rfl

/-- A comparison is a subtraction without borrow that leaves AC and AZ. -/
theorem compareSar_eq_differenceSar (f : Sar) (a b : Word) :
    compareSar f a b = { differenceSar f a b false with ac := f.ac, az := f.az } := by
  simp [compareSar, differenceSar, srArAfter, srAfter]

theorem compareSar_eq (f : Sar) (a b : Word) :
    compareSar f a b =
      { f with v := (subC a b).v, s := (subC a b).s, c := (subC a b).c, z := (subC a b).z } := by
  rw [compareSar_eq_differenceSar, differenceSar_eq, subC_eq]

theorem subC_r (a b : Word) : (subC a b).r = BitVec.ofInt 16 ((a.toNat : Int) - b.toNat) := by
  rw [subC_eq, addC_not_r]
  simp

/-! The ends of the instructions. -/

theorem endArith_sum (s : State) (rd : Reg) (a b : Word) (cin : Bool) :
    s.endArith rd (addC a b cin) = { s with
      regs := s.regs.set rd (BitVec.ofNat 16 (a.toNat + b.toNat + cin.toNat))
      sar := sumSar s.sar a b cin
      pc := s.pc + 1 } := by
  rw [sumSar_eq, ← addC_r]
  rfl

theorem endArith_difference (s : State) (rd : Reg) (a b : Word) (borrow : Bool) :
    s.endArith rd (addC a (~~~b) (!borrow)) = { s with
      regs := s.regs.set rd (BitVec.ofInt 16 ((a.toNat : Int) - b.toNat - borrow.toNat))
      sar := differenceSar s.sar a b borrow
      pc := s.pc + 1 } := by
  rw [differenceSar_eq, ← addC_not_r]
  rfl

theorem endArith_subC (s : State) (rd : Reg) (a b : Word) :
    s.endArith rd (subC a b) = { s with
      regs := s.regs.set rd (BitVec.ofInt 16 ((a.toNat : Int) - b.toNat))
      sar := differenceSar s.sar a b false
      pc := s.pc + 1 } := by
  rw [differenceSar_eq, ← subC_r]
  rfl

theorem endArithSp_sum (s : State) (a b : Word) :
    s.endArithSp (addC a b false) = { s with
      sp := BitVec.ofNat 16 (a.toNat + b.toNat)
      sar := sumSar s.sar a b false
      pc := s.pc + 1 } := by
  have sum : BitVec.ofNat 16 (a.toNat + b.toNat) = (addC a b false).r := (addC_r a b false).symm
  rw [sumSar_eq, sum]
  rfl

theorem endArithSp_subC (s : State) (a b : Word) :
    s.endArithSp (subC a b) = { s with
      sp := BitVec.ofInt 16 ((a.toNat : Int) - b.toNat)
      sar := differenceSar s.sar a b false
      pc := s.pc + 1 } := by
  rw [differenceSar_eq, ← subC_r]
  rfl

theorem endCompare_subC (s : State) (a b : Word) :
    s.endCompare (subC a b) = { s with sar := compareSar s.sar a b, pc := s.pc + 1 } := by
  rw [compareSar_eq]
  rfl

/-! The obligations. -/

/-- Settles O28: both end with the exact sum, `addc` with AC as the carry in. -/
theorem registerAdditionSetsBothFlagSets : Obligations.RegisterAdditionSetsBothFlagSets := by
  unfold Obligations.RegisterAdditionSetsBothFlagSets
  intro rn rs rd s
  exact ⟨congrArg Host.Outcome.next (endArith_sum s rd (s.reg rn) (s.reg rs) false),
    congrArg Host.Outcome.next (endArith_sum s rd (s.reg rn) (s.reg rs) s.sar.ac)⟩

/-- The adder of `subc` has AC as its carry in, which is the complement of the borrow. -/
theorem exec_subcrrr (rn rs rd : Reg) (s : State) :
    exec (.subcrrr rn rs rd) s = .next (s.endArith rd (addC (s.reg rn) (~~~(s.reg rs)) (!!s.sar.ac))) := by
  rw [Bool.not_not]
  rfl

/-- Settles O29: both end with the exact difference, `subc` with the complement of AC as the borrow. -/
theorem registerSubtractionSetsBothFlagSets : Obligations.RegisterSubtractionSetsBothFlagSets := by
  unfold Obligations.RegisterSubtractionSetsBothFlagSets
  intro rn rs rd s
  refine ⟨congrArg Host.Outcome.next (endArith_subC s rd (s.reg rn) (s.reg rs)), ?_⟩
  rw [exec_subcrrr, endArith_difference]

/-- An 8-bit immediate, zero-extended, has its own value. -/
theorem zext16_byte (k : BitVec 8) : (zext16 k).toNat = k.toNat := zext16_toNat (by decide) k

/-- Settles O30: the immediate has its own value. -/
theorem immediateAdditionAndSubtraction : Obligations.ImmediateAdditionAndSubtraction := by
  unfold Obligations.ImmediateAdditionAndSubtraction
  intro rd k s
  rw [← zext16_eq, ← zext16_byte]
  exact ⟨congrArg Host.Outcome.next (endArith_sum s rd (s.reg rd) (zext16 k) false),
    congrArg Host.Outcome.next (endArith_subC s rd (s.reg rd) (zext16 k))⟩

/-- Settles O31: the arithmetic of SP, with an immediate that has its own value. -/
theorem offsetToStackPointer : Obligations.OffsetToStackPointer := by
  unfold Obligations.OffsetToStackPointer
  intro k s
  rw [← zext16_eq, ← zext16_byte]
  exact ⟨congrArg Host.Outcome.next (endArithSp_sum s s.sp (zext16 k)),
    congrArg Host.Outcome.next (endArithSp_subC s s.sp (zext16 k))⟩

/-- Settles O32: SP is the first operand in all four. -/
theorem stackPointerAndRegisterArithmetic : Obligations.StackPointerAndRegisterArithmetic := by
  unfold Obligations.StackPointerAndRegisterArithmetic
  intro rd s
  exact ⟨congrArg Host.Outcome.next (endArithSp_sum s s.sp (s.reg rd)),
    congrArg Host.Outcome.next (endArithSp_subC s s.sp (s.reg rd)),
    congrArg Host.Outcome.next (endArith_sum s rd s.sp (s.reg rd) false),
    congrArg Host.Outcome.next (endArith_subC s rd s.sp (s.reg rd))⟩

theorem exec_cmpkr (rd : Reg) (k : BitVec 8) (s : State) :
    exec (.cmpkr rd k) s = .next { s with
      sar := compareSar s.sar (s.reg rd) (BitVec.ofInt 16 k.toInt), pc := s.pc + 1 } := by
  rw [← sext16_eq]
  exact congrArg Host.Outcome.next (endCompare_subC s (s.reg rd) (sext16 k))

theorem exec_cmprr (rs rd : Reg) (s : State) :
    exec (.cmprr rs rd) s = .next { s with sar := compareSar s.sar (s.reg rd) (s.reg rs), pc := s.pc + 1 } :=
  congrArg Host.Outcome.next (endCompare_subC s (s.reg rd) (s.reg rs))

/-- Settles O33: both compares end alike. -/
theorem compareSetsCompareFlagsOnly : Obligations.CompareSetsCompareFlagsOnly := by
  unfold Obligations.CompareSetsCompareFlagsOnly
  exact fun rs rd k s => ⟨exec_cmpkr rd k s, exec_cmprr rs rd s⟩

/-! `neg`. -/

/-- The complement in exact arithmetic, narrowed, from the unsigned and from the signed value. -/
theorem subC_zero_r (b : Word) : (subC 0x0000#16 b).r = BitVec.ofInt 16 (-b.toInt) := by
  rw [subC_r]
  apply BitVec.eq_of_toInt_eq
  rw [BitVec.toInt_ofInt, BitVec.toInt_ofInt, BitVec.toInt_eq_toNat_bmod]
  simp

/-- Only the least value has no negative in 16 bits. -/
theorem subC_zero_v (b : Word) : (subC 0x0000#16 b).v = decide (b = 0x8000#16) := by
  rw [subC_eq, addC_not_v, Bool.eq_iff_iff]
  have := b.isLt
  simp [BitVec.toInt_eq_toNat_cond, BitVec.toNat_eq]
  split_ifs <;> omega

theorem subC_zero_c (b : Word) : (subC 0x0000#16 b).c = decide (b = 0) := by
  rw [subC_eq, addC_not_c, Bool.eq_iff_iff]
  simp [BitVec.toNat_eq]

theorem subC_zero_z (b : Word) : (subC 0x0000#16 b).z = decide (b = 0) := by
  rw [subC_eq, addC_z, ← subC_eq, subC_r, Bool.eq_iff_iff]
  have := b.isLt
  simp [BitVec.toNat_eq, BitVec.toNat_ofInt]
  omega

theorem subC_zero_s (b : Word) : (subC 0x0000#16 b).s = decide ((BitVec.ofInt 16 (-b.toInt)).toInt < 0) := by
  rw [← subC_zero_r, subC_eq, addC_s]

theorem exec_neg (rd : Reg) (s : State) : exec (.neg rd) s = .next { s with
    regs := s.regs.set rd (subC 0x0000#16 (s.reg rd)).r
    sar := { s.sar with
      v := (subC 0x0000#16 (s.reg rd)).v, s := (subC 0x0000#16 (s.reg rd)).s
      c := (subC 0x0000#16 (s.reg rd)).c, z := (subC 0x0000#16 (s.reg rd)).z }
    pc := s.pc + 1 } := rfl

/-- Settles O34: the result and the flags of 0 - Rd. -/
theorem negateIsZeroMinusTheRegister : Obligations.NegateIsZeroMinusTheRegister := by
  unfold Obligations.NegateIsZeroMinusTheRegister
  intro rd s
  rw [exec_neg, subC_zero_r, subC_zero_v, subC_zero_s, subC_zero_c, subC_zero_z]

/-! Double words. -/

theorem toNat_doubleWord (high low : Word) : (high ++ low).toNat = high.toNat * 65536 + low.toNat := by
  rw [BitVec.toNat_append, ← Nat.shiftLeft_add_eq_or_of_lt low.isLt, Nat.shiftLeft_eq]

/-- The carry of the low words into the high ones makes the sum of the double words. -/
theorem addC_doubleWord (ah al bh bl : Word) :
    ((addC ah bh (addC al bl false).c).r ++ (addC al bl false).r).toNat =
      ((ah ++ al).toNat + (bh ++ bl).toNat) % 2 ^ 32 := by
  have := al.isLt
  have := bl.isLt
  simp only [toNat_doubleWord, addC_r, addC_c, BitVec.toNat_ofNat, Bool.toNat_false, Nat.add_zero]
  by_cases carry : 65536 ≤ al.toNat + bl.toNat
  · simp only [carry, decide_true, Bool.toNat_true]
    omega
  · simp only [carry, decide_false, Bool.toNat_false]
    omega

/-- Settles O35: the compare keeps AC, and AC is the carry of the low words. -/
theorem addThenAddcIsTheDoubleWordSum : Obligations.AddThenAddcIsTheDoubleWordSum := by
  unfold Obligations.AddThenAddcIsTheDoubleWordSum
  intro an bn ah bh dl dh r k s lowKeepsA lowKeepsB highKeepsLow
  refine ⟨s.endArith dl (addC (s.reg an) (s.reg bn) false), _, _, rfl, rfl, rfl, ?_⟩
  rw [← addC_doubleWord]
  simp [lowKeepsA.symm, lowKeepsB.symm, highKeepsLow.symm]

/-! The conditions after a comparison. -/

/-- The difference of two words as a signed value: the exact one, wrapped around at most once. -/
theorem toInt_difference (a b : Word) :
    (BitVec.ofInt 16 ((a.toNat : Int) - b.toNat)).toInt =
      if a.toInt - b.toInt < -32768 then a.toInt - b.toInt + 65536
      else if 32767 < a.toInt - b.toInt then a.toInt - b.toInt - 65536
      else a.toInt - b.toInt := by
  have := a.isLt
  have := b.isLt
  simp only [BitVec.toInt_eq_toNat_cond, BitVec.toNat_ofInt]
  split_ifs <;> omega

/-- S differs from V exactly when the first value is the lesser, signed. -/
theorem compareSar_less (f : Sar) (a b : Word) :
    (compareSar f a b).s ≠ (compareSar f a b).v ↔ a.toInt < b.toInt := by
  have := a.isLt
  have := b.isLt
  simp only [compareSar, srAfter, overflows]
  rw [ne_eq, Bool.eq_iff_iff, decide_eq_true_iff, Bool.not_eq_true', decide_eq_false_iff_not, toInt_difference,
    BitVec.toInt_eq_toNat_cond, BitVec.toInt_eq_toNat_cond]
  split_ifs <;> omega

theorem compareSar_zero (f : Sar) (a b : Word) : (compareSar f a b).z = true ↔ a = b := by
  have := a.isLt
  have := b.isLt
  simp only [compareSar, srAfter, decide_eq_true_eq, BitVec.toNat_eq, BitVec.toNat_ofInt]
  simp
  omega

theorem compareSar_carry (f : Sar) (a b : Word) : (compareSar f a b).c = true ↔ b.toNat ≤ a.toNat := by
  simp [compareSar, srAfter]

/-- After a comparison of two words every condition orders them as R33 describes. -/
theorem condHolds_compareSar (f : Sar) (a b : Word) (cc : Cond) :
    condHolds cc (compareSar f a b) = true ↔ Compares a b cc := by
  have less := compareSar_less f a b
  have zero := compareSar_zero f a b
  have carry := compareSar_carry f a b
  rw [condHolds_iff]
  cases cc with simp only [CondTrue, Compares]
  | eq => exact zero
  | ne => rw [← Bool.not_eq_true, zero]
  | uge => exact carry
  | ult => rw [← Bool.not_eq_true, carry, not_le]
  | lt => exact less
  | ge => rw [← not_ne_iff, less, not_lt]
  | ugt =>
    rw [← Bool.not_eq_true, carry, zero, BitVec.toNat_eq]
    omega
  | gt =>
    rw [← not_ne_iff, less, ← Bool.not_eq_true, zero, ← BitVec.toInt_inj]
    omega

/-- Settles O27: both compares and the subtraction leave the V, S, C and Z of a comparison. -/
theorem conditionsAfterCompareOrderTheOperands : Obligations.ConditionsAfterCompareOrderTheOperands := by
  unfold Obligations.ConditionsAfterCompareOrderTheOperands
  intro s cc rn rs rd k
  refine ⟨⟨_, exec_cmprr rs rd s, condHolds_compareSar _ _ _ cc⟩, ⟨_, exec_cmpkr rd k s, condHolds_compareSar _ _ _ cc⟩,
    ⟨_, congrArg Host.Outcome.next (endArith_subC s rd (s.reg rn) (s.reg rs)), ?_⟩⟩
  rw [← condHolds_compareSar s.sar, compareSar_eq_differenceSar, condHolds_congr cc] <;> rfl

end Sys2Proof.Proofs
end

section
/-! PROOFS. Logic and shifts, loads and stores, the stack (families 41, 42, 43 and 44). -/

namespace Sys2Proof.Proofs

open Sys2Proof Sys2Proof.Machine Sys2Proof.Claims

/-! Logic. -/

/-- A meaning that ends as a logic instruction does leaves Z and S of the result, and some C and V. -/
theorem logicResult_of_endLogic {i : Instr} {s : State} {rd : Reg} {r : Word}
    (h : exec i s = .next (s.endLogic rd r)) : LogicResult i s rd r := by
  refine ⟨Config.freeBit s.draws, Config.freeBit (s.draws + 1), s.draws + 2, ?_⟩
  rw [h, ← BitVec.msb_eq_toInt]
  rfl

/-- Settles O36: the six ends, with the immediate and the complement as the statement writes them. -/
theorem logicLeavesCarryAndOverflowFree : Obligations.LogicLeavesCarryAndOverflowFree := by
  unfold Obligations.LogicLeavesCarryAndOverflowFree
  intro rn rs rd k s
  have complement : s.reg rd ^^^ 0xFFFF#16 = ~~~(s.reg rd) := BitVec.xor_allOnes
  rw [← zext16_eq, complement]
  exact ⟨logicResult_of_endLogic rfl, logicResult_of_endLogic rfl, logicResult_of_endLogic rfl,
    logicResult_of_endLogic rfl, logicResult_of_endLogic rfl, logicResult_of_endLogic rfl⟩

/-! Shifts. -/

/-- The end of a shift as one update of the state: no flag is written (log 20). -/
theorem endShift_eq (s : State) (rd : Reg) (r : Word) :
    s.endShift rd r = { s with regs := s.regs.set rd r, pc := s.pc + 1 } := rfl

theorem shiftRight_one (v : Word) : v >>> 1 = BitVec.ofNat 16 (v.toNat / 2) := by
  apply BitVec.eq_of_toNat_eq
  have := v.isLt
  simp [Nat.shiftRight_eq_div_pow]
  omega

theorem shiftLeft_one (v : Word) : v <<< 1 = BitVec.ofNat 16 (2 * v.toNat) := by
  apply BitVec.eq_of_toNat_eq
  simp [Nat.shiftLeft_eq, Nat.mul_comm]

theorem sshiftRight_one (v : Word) : v.sshiftRight 1 = BitVec.ofInt 16 (v.toInt / 2) := by
  rw [BitVec.sshiftRight_eq, Int.shiftRight_eq_div_pow]
  rfl

/-- Settles O37: each shift in exact arithmetic. -/
theorem shiftsHalveAndDouble : Obligations.ShiftsHalveAndDouble := by
  unfold Obligations.ShiftsHalveAndDouble
  intro rd s
  rw [← shiftRight_one, ← shiftLeft_one, ← sshiftRight_one]
  exact ⟨congrArg Host.Outcome.next (endShift_eq s rd _), congrArg Host.Outcome.next (endShift_eq s rd _),
    congrArg Host.Outcome.next (endShift_eq s rd _)⟩

/-! Loads. -/

theorem eaStack_eq (s : State) (k : BitVec 8) : eaStack s k = s.sp + BitVec.ofNat 16 k.toNat := by
  rw [eaStack, zext16_eq]

section
variable {i : Instr} {s : State} {rd : Reg} {ea : Word} {n : Nat}

theorem loadsWord_of_exec (h : exec i s = loadWord s rd ea n) : LoadsWord i s rd ea (BitVec.ofNat 16 n) := by
  intro lo hi even low high
  rw [h, loadWord, memRead16_written even low high, continueWith_ok, State.advance, pcPlus_word]
  rfl

theorem loadsByte_of_zero (h : exec i s = loadZeroByte s rd ea n) :
    LoadsByte i s rd ea (BitVec.ofNat 16 n) fun b => BitVec.ofNat 16 b.toNat := by
  intro b written
  have widen : b.setWidth 16 = BitVec.ofNat 16 b.toNat := zext16_eq b
  rw [h, loadZeroByte, memRead8_written written, continueWith_ok, State.advance, pcPlus_word, widen]
  rfl

theorem loadsByte_of_sign (h : exec i s = loadSignByte s rd ea n) :
    LoadsByte i s rd ea (BitVec.ofNat 16 n) fun b => BitVec.ofInt 16 b.toInt := by
  intro b written
  rw [h, loadSignByte, memRead8_written written, continueWith_ok, State.advance, pcPlus_word]
  rfl

theorem oddFaults_of_loadWord (h : exec i s = loadWord s rd ea n) : OddFaults i s ea := by
  intro odd
  rw [h, loadWord, memRead16_odd odd, continueWith_error]

theorem unwrittenWordFaults_of_loadWord (h : exec i s = loadWord s rd ea n) : UnwrittenWordFaults i s ea := by
  refine fun even => ⟨fun low => ?_, fun low high => ?_⟩
  · rw [h, loadWord, memRead16_low_unwritten even low, continueWith_error]
  · rw [h, loadWord, memRead16_high_unwritten even low high, continueWith_error]

theorem unwrittenByteFaults_of_zero (h : exec i s = loadZeroByte s rd ea n) : UnwrittenByteFaults i s ea := by
  intro unwritten
  rw [h, loadZeroByte, memRead8_unwritten unwritten, continueWith_error]

theorem unwrittenByteFaults_of_sign (h : exec i s = loadSignByte s rd ea n) : UnwrittenByteFaults i s ea := by
  intro unwritten
  rw [h, loadSignByte, memRead8_unwritten unwritten, continueWith_error]

/-! Stores. -/

theorem holdsWord_writeWord (s : State) {ea : Word} (even : ea.getLsbD 0 = false) (v : Word) :
    HoldsWord (Memory.writeWord s.data ea v) s ea v := fun a => Memory.read_writeWord s.data even v a

theorem storesWord_of_exec (h : exec i s = storeWord s rd ea n) :
    StoresWord i s (s.reg rd) ea (BitVec.ofNat 16 n) := by
  refine fun even => ⟨_, ?_, holdsWord_writeWord s even _⟩
  rw [h, storeWord_even even, State.advance, pcPlus_word]
  rfl

theorem oddFaults_of_storeWord (h : exec i s = storeWord s rd ea n) : OddFaults i s ea := by
  intro odd
  rw [h, storeWord_odd odd]

theorem storesByte_of_exec (h : exec i s = storeByte s rd ea n) :
    StoresByte i s (s.reg rd) ea (BitVec.ofNat 16 n) := by
  refine ⟨_, ?_, fun a => Cells.read_write s.data ea.toNat a _⟩
  rw [h, storeByte_eq, State.advance, pcPlus_word]
  rfl

end

/-- Settles O38: the address of each form, and the one word load. -/
theorem wordLoadsReadLittleEndian : Obligations.WordLoadsReadLittleEndian := by
  unfold Obligations.WordLoadsReadLittleEndian
  intro rn rs rd k6 k8 a s
  rw [← eaOffset_eq, ← eaStack_eq]
  exact ⟨loadsWord_of_exec rfl, loadsWord_of_exec rfl, loadsWord_of_exec rfl, loadsWord_of_exec rfl⟩

/-- Settles O39: the address of each form, and the two byte loads. -/
theorem byteLoadsWiden : Obligations.ByteLoadsWiden := by
  unfold Obligations.ByteLoadsWiden
  intro rn rs rd k6 k8 a s
  rw [← eaOffset_eq, ← eaStack_eq]
  exact ⟨loadsByte_of_zero rfl, loadsByte_of_sign rfl, loadsByte_of_sign rfl, loadsByte_of_sign rfl,
    loadsByte_of_zero rfl, loadsByte_of_sign rfl⟩

/-- Settles O40: the address of each form, and the one word store. -/
theorem wordStoresWriteTwoBytes : Obligations.WordStoresWriteTwoBytes := by
  unfold Obligations.WordStoresWriteTwoBytes
  intro rn rs rd k6 k8 a s
  rw [← eaOffset_eq, ← eaStack_eq]
  exact ⟨storesWord_of_exec rfl, storesWord_of_exec rfl, storesWord_of_exec rfl, storesWord_of_exec rfl⟩

/-- Settles O41: the address of each form, and the one byte store. -/
theorem byteStoresWriteOneByte : Obligations.ByteStoresWriteOneByte := by
  unfold Obligations.ByteStoresWriteOneByte
  intro rn rs rd k6 k8 a s
  rw [← eaOffset_eq, ← eaStack_eq]
  exact ⟨storesByte_of_exec rfl, storesByte_of_exec rfl, storesByte_of_exec rfl, storesByte_of_exec rfl⟩

/-! The stack. -/

theorem exec_push (rd : Reg) (s : State) : exec (.push rd) s = execPush rd s := rfl

theorem exec_pop (rd : Reg) (s : State) :
    exec (.pop rd) s = continueWith (memRead16 s s.sp) fun v => ((s.setSp (s.sp + 2)).setReg rd v).advance 1 :=
  execPop_eq rd s

theorem exec_ret (s : State) :
    exec .ret s = continueWith (memRead16 s s.sp) fun v => (s.setSp (s.sp + 2)).setPc v := execRet_eq s

/-- Settles O42: each access by its address. -/
theorem oddWordAccessesFault : Obligations.OddWordAccessesFault := by
  unfold Obligations.OddWordAccessesFault
  intro rn rs rd k6 k8 a o s
  rw [← eaOffset_eq, ← eaStack_eq]
  exact ⟨oddFaults_of_loadWord rfl, oddFaults_of_storeWord rfl, oddFaults_of_loadWord rfl, oddFaults_of_storeWord rfl,
    oddFaults_of_loadWord rfl, oddFaults_of_storeWord rfl, oddFaults_of_loadWord rfl, oddFaults_of_storeWord rfl,
    execPush_odd, fun odd => by rw [exec_pop, memRead16_odd odd, continueWith_error], callTo_odd, callTo_odd,
    fun odd => by rw [exec_ret, memRead16_odd odd, continueWith_error]⟩

theorem unwrittenWordFaults_pop (rd : Reg) (s : State) : UnwrittenWordFaults (.pop rd) s s.sp := by
  refine fun even => ⟨fun low => ?_, fun low high => ?_⟩
  · rw [exec_pop, memRead16_low_unwritten even low, continueWith_error]
  · rw [exec_pop, memRead16_high_unwritten even low high, continueWith_error]

theorem unwrittenWordFaults_ret (s : State) : UnwrittenWordFaults .ret s s.sp := by
  refine fun even => ⟨fun low => ?_, fun low high => ?_⟩
  · rw [exec_ret, memRead16_low_unwritten even low, continueWith_error]
  · rw [exec_ret, memRead16_high_unwritten even low high, continueWith_error]

/-- Settles O43: each read by its address. -/
theorem unwrittenBytesFault : Obligations.UnwrittenBytesFault := by
  unfold Obligations.UnwrittenBytesFault
  intro rn rs rd k6 k8 a s
  rw [← eaOffset_eq, ← eaStack_eq]
  exact ⟨unwrittenWordFaults_of_loadWord rfl, unwrittenWordFaults_of_loadWord rfl, unwrittenWordFaults_of_loadWord rfl,
    unwrittenWordFaults_of_loadWord rfl, unwrittenWordFaults_pop rd s, unwrittenWordFaults_ret s,
    unwrittenByteFaults_of_zero rfl, unwrittenByteFaults_of_sign rfl, unwrittenByteFaults_of_sign rfl,
    unwrittenByteFaults_of_sign rfl, unwrittenByteFaults_of_zero rfl, unwrittenByteFaults_of_sign rfl⟩

theorem exec_push_even {s : State} (even : s.sp.getLsbD 0 = false) (rd : Reg) :
    exec (.push rd) s = .next { s with
      data := Memory.writeWord s.data (s.sp - 2) (s.reg rd), sp := s.sp - 2, pc := s.pc + 1 } :=
  execPush_even ((even_sub_two _).trans even)

theorem callTo_even_eq {s : State} (even : s.sp.getLsbD 0 = false) (target : Word) :
    callTo s target = .next { s with
      data := Memory.writeWord s.data (s.sp - 2) (s.pc + 1), sp := s.sp - 2, pc := target } :=
  callTo_even ((even_sub_two _).trans even)

/-- Settles O44: the word lies at the new SP, which is even with the old one. -/
theorem pushStoresAtTheNewStackPointer : Obligations.PushStoresAtTheNewStackPointer := by
  unfold Obligations.PushStoresAtTheNewStackPointer
  exact fun rd s even => ⟨_, exec_push_even even rd, holdsWord_writeWord s ((even_sub_two _).trans even) _⟩

/-- Settles O23: both calls are the same operation, to their targets. -/
theorem callsPushTheReturnAddress : Obligations.CallsPushTheReturnAddress := by
  unfold Obligations.CallsPushTheReturnAddress
  intro a rd s even
  have holds := holdsWord_writeWord s ((even_sub_two s.sp).trans even) (s.pc + 1)
  rw [← relTarget_eq]
  exact ⟨⟨_, callTo_even_eq even (relTarget s a), holds⟩, ⟨_, callTo_even_eq even (s.reg rd), holds⟩⟩

/-- Settles O45: the read of the word at SP, low byte first. -/
theorem popLoadsAtTheOldStackPointer : Obligations.PopLoadsAtTheOldStackPointer := by
  unfold Obligations.PopLoadsAtTheOldStackPointer
  intro rd s lo hi even low high
  rw [exec_pop, memRead16_written even low high]
  rfl

/-- Settles O47: the read of the word at SP, low byte first. -/
theorem returnLoadsTheProgramCounter : Obligations.ReturnLoadsTheProgramCounter := by
  unfold Obligations.ReturnLoadsTheProgramCounter
  intro s lo hi even low high
  rw [exec_ret, memRead16_written even low high]
  rfl

/-- A word written is read back. -/
theorem memRead16_writeWord {t : State} {m : Memory} {ea v : Word} (even : ea.getLsbD 0 = false)
    (data : t.data = Memory.writeWord m ea v) : memRead16 t ea = .ok v := by
  have next := toNat_succ_of_even even
  have low : dataByte t ea = some (lowerByte cfg.endian v) := by
    rw [dataByte, data, Memory.read_writeWord m even, if_pos rfl]
  have high : dataByte t (ea + 1) = some (higherByte cfg.endian v) := by
    rw [dataByte, data, Memory.read_writeWord m even, if_neg (by omega), if_pos rfl]
  rw [memRead16_written even low high]
  exact congrArg Except.ok (joinBytes_split cfg.endian v)

/-- Settles O46: the word pushed is the word popped, and SP comes back. -/
theorem pushThenPopCopies : Obligations.PushThenPopCopies := by
  unfold Obligations.PushThenPopCopies
  intro ra rb s even
  refine ⟨_, _, exec_push_even even ra, ?_, rfl⟩
  rw [exec_pop, memRead16_writeWord ((even_sub_two _).trans even) rfl, continueWith_ok]
  simp [State.advance, State.setReg, State.setSp, State.setPc, BitVec.add_assoc]

/-- After a call `ret` comes back: the word at SP is the return address, and SP comes back. -/
theorem ret_after_callTo {s : State} (even : s.sp.getLsbD 0 = false) (target : Word) :
    ∃ t, callTo s target = .next t ∧ exec .ret t = .next { s with data := t.data, pc := s.pc + 1 } := by
  refine ⟨_, callTo_even_eq even target, ?_⟩
  rw [exec_ret, memRead16_writeWord ((even_sub_two _).trans even) rfl, continueWith_ok]
  simp [State.setSp, State.setPc]

/-- Settles O48: both calls are the same operation. -/
theorem callThenReturnComesBack : Obligations.CallThenReturnComesBack := by
  unfold Obligations.CallThenReturnComesBack
  exact fun a rd s even => ⟨ret_after_callTo even (relTarget s a), ret_after_callTo even (s.reg rd)⟩

end Sys2Proof.Proofs
end

section
/-! PROOFS. Moves, extensions, indirect jump, program memory, status register, interrupts (families 43 and 44). -/

namespace Sys2Proof.Proofs

open Sys2Proof Sys2Proof.Machine Sys2Proof.Claims

/-! T11. -/

/-- A place of the table of R99 that holds a one-word instruction of Rd. -/
theorem encodedAs_anyT11 {op : BitVec 3} {op2 : BitVec 2} {i : Reg → Instr}
    (leaf : ∀ w, w.extractLsb' 9 3 = op → w.extractLsb' 5 2 = op2 → decodeT11 w = .whole (i (regAt w 0)))
    (x : BitVec 2) (rd : Reg) : EncodedAs (anyT11 op op2 x rd) (i rd) := by
  have first : decodeFirst (anyT11 op op2 x rd) = .whole (i rd) := by
    rw [decodeFirst_anyT11, leaf _ (extract_anyT11_9_3 op op2 x rd) (extract_anyT11_5_2 op op2 x rd), regAt_anyT11_0]
  exact decode_whole first

theorem encodedAs_movsr (x : BitVec 2) (rd : Reg) :
    EncodedAs (0b0000010100000000#16 ||| place x 3 ||| place rd.bits 0) (.movsr rd) :=
  encodedAs_anyT11 (op := 0b010#3) (op2 := 0b00#2) (fun w row column => by simp [decodeT11, row, column]) x rd

theorem encodedAs_movrs (x : BitVec 2) (rd : Reg) :
    EncodedAs (0b0000011100000000#16 ||| place x 3 ||| place rd.bits 0) (.movrs rd) :=
  encodedAs_anyT11 (op := 0b011#3) (op2 := 0b00#2) (fun w row column => by simp [decodeT11, row, column]) x rd

theorem encodedAs_jmpreg (x : BitVec 2) (rd : Reg) :
    EncodedAs (0b0000000100100000#16 ||| place x 3 ||| place rd.bits 0) (.jmpreg rd) :=
  encodedAs_anyT11 (op := 0b000#3) (op2 := 0b01#2) (fun w row column => by simp [decodeT11, row, column]) x rd

theorem decodeFirst_movKr (x : BitVec 2) (rd : Reg) :
    decodeFirst (0b0000000101100000#16 ||| place x 3 ||| place rd.bits 0) = .wide .movKr rd := by
  have first : decodeFirst (anyT11 0b000#3 0b11#2 x rd) = .wide .movKr rd := by
    rw [decodeFirst_anyT11]
    simp [decodeT11]
  exact first

/-- Settles O50: the two-word form, its end, and its fetch where the second word is not loaded. -/
theorem moveWideImmediateTakesTheNextWord : Obligations.MoveWideImmediateTakesTheNextWord := by
  unfold Obligations.MoveWideImmediateTakesTheNextWord
  exact fun rd x s => ⟨decode_wide (decodeFirst_movKr x rd), fun k => rfl, fun loaded unloaded =>
    step_of_fetch_error (fetch_second_unloaded loaded (decodeFirst_movKr x rd) unloaded)⟩

/-- Settles O51: the two places of the table, and the two copies. -/
theorem stackPointerMovesCopy : Obligations.StackPointerMovesCopy := by
  unfold Obligations.StackPointerMovesCopy
  exact fun rd x s => ⟨encodedAs_movsr x rd, congrArg Host.Outcome.next (endMove_eq s rd s.sp), encodedAs_movrs x rd, rfl⟩

/-- Settles O52: the jump sets pc alone; what is loaded there the next fetch finds. -/
theorem indirectJumpTakesTheWholeRegister : Obligations.IndirectJumpTakesTheWholeRegister := by
  unfold Obligations.IndirectJumpTakesTheWholeRegister
  exact fun rd x s => ⟨encodedAs_jmpreg x rd, rfl, fun unloaded =>
    step_of_fetch_error (fetch_unloaded (s := { s with pc := s.reg rd }) unloaded)⟩

/-! T13. -/

/-- A row of T13 that holds an instruction of Rs and Rd. -/
theorem encodedAs_anyT13 {op : BitVec 3} {i : Reg → Reg → Instr}
    (leaf : ∀ w, w.extractLsb' 9 3 = op → decodeT13 w = i (regAt w 3) (regAt w 0)) (x : BitVec 1) (rs rd : Reg) :
    EncodedAs (anyT13 op x rs rd) (i rs rd) := by
  have first : decodeFirst (anyT13 op x rs rd) = .whole (i rs rd) := by
    rw [decodeFirst_anyT13, leaf _ (extract_anyT13_9_3 op x rs rd), regAt_anyT13_3, regAt_anyT13_0]
  exact decode_whole first

theorem encodedAs_zext (x : BitVec 1) (rs rd : Reg) :
    EncodedAs (0b0000010000000000#16 ||| place x 6 ||| place rs.bits 3 ||| place rd.bits 0) (.zext rs rd) :=
  encodedAs_anyT13 (op := 0b010#3) (fun w row => by simp [decodeT13, row]) x rs rd

theorem encodedAs_sext (x : BitVec 1) (rs rd : Reg) :
    EncodedAs (0b0000011000000000#16 ||| place x 6 ||| place rs.bits 3 ||| place rd.bits 0) (.sext rs rd) :=
  encodedAs_anyT13 (op := 0b011#3) (fun w row => by simp [decodeT13, row]) x rs rd

theorem encodedAs_bswap (x : BitVec 1) (rs rd : Reg) :
    EncodedAs (0b0000100000000000#16 ||| place x 6 ||| place rs.bits 3 ||| place rd.bits 0) (.bswap rs rd) :=
  encodedAs_anyT13 (op := 0b100#3) (fun w row => by simp [decodeT13, row]) x rs rd

theorem encodedAs_sextw (x : BitVec 1) (rs rd : Reg) :
    EncodedAs (0b0000101000000000#16 ||| place x 6 ||| place rs.bits 3 ||| place rd.bits 0) (.sextw rs rd) :=
  encodedAs_anyT13 (op := 0b101#3) (fun w row => by simp [decodeT13, row]) x rs rd

/-! The four results in exact arithmetic. -/

theorem lowByte_toNat (v : Word) : (v.extractLsb' 0 8).toNat = v.toNat % 256 := by
  simp [BitVec.extractLsb'_toNat]

theorem zext_lowByte (v : Word) : zext16 (v.extractLsb' 0 8) = BitVec.ofNat 16 (v.toNat % 256) := by
  rw [zext16_eq, lowByte_toNat]

theorem sext_lowByte (v : Word) : sext16 (v.extractLsb' 0 8) = BitVec.ofInt 16 ((v.toNat : Int).bmod 256) := by
  rw [sext16_eq, BitVec.toInt_eq_toNat_bmod, lowByte_toNat, Int.natCast_mod]
  exact congrArg _ (Int.emod_bmod ..)

theorem swapBytes_eq (v : Word) : swapBytes v = BitVec.ofNat 16 (v.toNat % 256 * 256 + v.toNat / 256) := by
  have high : (v.extractLsb' 8 8).toNat = v.toNat / 256 := by
    have := v.isLt
    rw [BitVec.extractLsb'_toNat, Nat.shiftRight_eq_div_pow]
    omega
  have := v.isLt
  apply BitVec.eq_of_toNat_eq
  rw [swapBytes, BitVec.toNat_append, ← Nat.shiftLeft_add_eq_or_of_lt (BitVec.isLt _), lowByte_toNat, high,
    Nat.shiftLeft_eq, BitVec.toNat_ofNat, Nat.mod_eq_of_lt (by omega : _ < 2 ^ 16)]

/-- Exchanging the bytes twice gives the word back. -/
theorem swapBytes_swapBytes (v : Word) : swapBytes (swapBytes v) = v := by
  have low : (swapBytes v).extractLsb' 0 8 = v.extractLsb' 8 8 := by
    ext n hn
    simp only [swapBytes, BitVec.getElem_extractLsb', BitVec.getLsbD_append, BitVec.getLsbD_extractLsb']
    simp [hn]
  have high : (swapBytes v).extractLsb' 8 8 = v.extractLsb' 0 8 := by
    ext n hn
    simp only [swapBytes, BitVec.getElem_extractLsb', BitVec.getLsbD_append, BitVec.getLsbD_extractLsb']
    simp [hn]
  rw [swapBytes, low, high]
  exact joinBytes_split .little v

theorem bit15_iff_negative (v : Word) : v.getLsbD 15 = true ↔ v.toInt < 0 := by
  have msb : v.getLsbD 15 = v.msb := rfl
  rw [msb, BitVec.msb_eq_toInt, decide_eq_true_iff]

theorem signWord_eq (v : Word) :
    (if v.getLsbD 15 then 0xFFFF#16 else 0x0000#16) = if v.toInt < 0 then 0xFFFF#16 else 0x0000#16 := by
  simp only [bit15_iff_negative]

/-- The sign spread over a word is the upper word of the 32-bit sign extension. -/
theorem signWord_eq_upper (v : Word) :
    (if v.toInt < 0 then 0xFFFF#16 else 0x0000#16) = (v.signExtend 32).extractLsb' 16 16 := by
  rw [← signWord_eq]
  apply BitVec.eq_of_getLsbD_eq
  intro n hn
  have sign : v.getLsbD 15 = v.msb := rfl
  rw [BitVec.getLsbD_extractLsb', BitVec.getLsbD_signExtend, if_neg (by omega : ¬ 16 + n < 16), sign, decide_eq_true hn,
    decide_eq_true (by omega : 16 + n < 32), Bool.true_and, Bool.true_and]
  cases v.msb with
  | false => simp
  | true =>
    have ones : 0xFFFF#16 = BitVec.allOnes 16 := rfl
    rw [if_pos rfl, ones, BitVec.getLsbD_allOnes, decide_eq_true hn]

theorem exec_sextw (rs rd : Reg) (s : State) : exec (.sextw rs rd) s =
    .next (s.endMove rd (if (s.reg rs).toInt < 0 then 0xFFFF#16 else 0x0000#16)) := by
  rw [← signWord_eq]
  rfl

theorem exec_bswap (rs rd : Reg) (s : State) :
    exec (.bswap rs rd) s = .next (s.endMove rd (swapBytes (s.reg rs))) := rfl

/-- Settles O53: the four words of the table, and the four results in exact arithmetic. -/
theorem extensionsAndByteSwap : Obligations.ExtensionsAndByteSwap := by
  unfold Obligations.ExtensionsAndByteSwap
  intro rs rd x s
  rw [← zext_lowByte, ← sext_lowByte, ← swapBytes_eq]
  refine ⟨encodedAs_zext x rs rd, rfl, encodedAs_sext x rs rd, rfl, encodedAs_bswap x rs rd, rfl, ?_,
    encodedAs_sextw x rs rd, exec_sextw rs rd s, signWord_eq_upper _⟩
  refine ⟨_, exec_bswap rs rd s, ?_⟩
  rw [exec_bswap, State.endMove_reg, if_pos rfl, swapBytes_swapBytes]
  simp [endMove_eq, BitVec.add_assoc]

theorem exec_movrr_same (r : Reg) (s : State) : exec (.movrr r r) s = .next { s with pc := s.pc + 1 } := by
  have copies : exec (.movrr r r) s = .next ((if r ≠ r then s.setReg r (s.reg r) else s).advance 1) := rfl
  rw [copies, if_neg (not_not.2 rfl)]
  rfl

/-- Settles O54: the copy, which with s = d leaves the register as it is. -/
theorem registerMoveCopies : Obligations.RegisterMoveCopies := by
  unfold Obligations.RegisterMoveCopies
  refine fun rs rd s => ⟨?_, ?_⟩
  · by_cases same : rs = rd
    · rw [same, exec_movrr_same, RegFile.set_reg]
    · have copies : exec (.movrr rs rd) s = .next ((if rs ≠ rd then s.setReg rd (s.reg rs) else s).advance 1) := rfl
      rw [copies, if_pos same]
      rfl
  · exact exec_movrr_same rs s

/-- Settles O55: what is loaded at the address in Rs. -/
theorem programMemoryLoad : Obligations.ProgramMemoryLoad := by
  unfold Obligations.ProgramMemoryLoad
  refine fun rs rd s => ⟨fun w loaded => ?_, fun unloaded => ?_⟩
  · have read : exec (.mov16pr rs rd) s = continueWith (progRead s.prog (s.reg rs)) fun w => s.endMove rd w := rfl
    rw [read, progRead_of_some loaded, continueWith_ok, endMove_eq]
  · have read : exec (.mov16pr rs rd) s = continueWith (progRead s.prog (s.reg rs)) fun w => s.endMove rd w := rfl
    rw [read, progRead_of_none unloaded, continueWith_error]

/-- Settles O56: `mov SR, Rd` moves the value of SAR. -/
theorem statusReadDependsOnFlagsAlone : Obligations.StatusReadDependsOnFlagsAlone := by
  unfold Obligations.StatusReadDependsOnFlagsAlone
  exact ⟨sarValue, fun rd s => congrArg Host.Outcome.next (endMove_eq s rd (sarValue s.sar))⟩

/-- Settles O57: I replaced, and pc moved by one word. -/
theorem interruptEnableAndDisable : Obligations.InterruptEnableAndDisable := by
  unfold Obligations.InterruptEnableAndDisable
  exact fun s => ⟨rfl, rfl⟩

end Sys2Proof.Proofs
end
